-- ==== Sys2Proof/Word.lean ====
section
/-! DEFINITION. The word types of the block: bytes, host registers, and the three listing words in which the
spec writes what stands on its ports (30_encoding.md rules R80, R82, R84). -/

namespace Sys2Proof

/-- One byte (10_state.md R27: each byte of the frame buffer is 8 bits). -/
abbrev Byte := BitVec 8

/-- A host register or host data value (00_scope.md R6: register width 32 bits). -/
abbrev Reg32 := BitVec 32

/-- Format HOSTOP, one cycle of the host port (30_encoding.md R80). -/
abbrev HostWord := BitVec 42

/-- Format BUSREQ, the request the block presents (30_encoding.md R82). -/
abbrev ReqWord := BitVec 37

/-- Format BUSRSP, the response the transport presents (30_encoding.md R84). -/
abbrev RspWord := BitVec 65

/-- A word on one of the three ports that the opcode table lists: which format it has, and its bits. -/
inductive PortWord where
  | hostop (w : HostWord)
  | busreq (w : ReqWord)
  | busrsp (w : RspWord)
  deriving DecidableEq, Repr

end Sys2Proof
end

