-- ==== Sys2Proof/Config.lean ====
section
/-! DEFINITION. What fixes one instance of the block (00_scope.md R6): the constants the spec gives, the OPEN
parameters, which the model takes as an argument (State.cfg), and the one free value of the model: what the
environment puts on the input ports in a cycle nobody has scripted. -/

namespace Sys2Proof

/-- P_SENSOR_ADDR (00_scope.md R6). -/
def Config.sensorAddr : Byte := 0x38

/-- P_FRAME_LEN (00_scope.md R6). -/
def Config.frameLen : Byte := 7

/-- P_SETTLE_MS (00_scope.md R6). -/
def Config.settleMs : Byte := 80

/-- The interface version of the spec (00_scope.md R1, 10_state.md R42). -/
def Config.version : Byte := 1

/-- P_TRIGGER: the bytes 0xAC, 0x33, 0x00 in that order (00_scope.md R6). -/
def Config.triggerBytes : List Byte := [0xAC, 0x33, 0x00]

/-- The values of P_CONV_EVAL (00_scope.md R6, 42_conversion.md R183 and R184). -/
inductive ConvEval where
  | stepwiseF32
  | exactThenF32
  deriving DecidableEq, Repr, Inhabited

/-- The OPEN parameters of 00_scope.md R6. They are build-time values: the block never writes them, and reset does
not touch them (70_reset_and_hazards.md R230). -/
structure Params where
  /-- P_CLK_PER_MS: clock edges per millisecond. -/
  clkPerMs : Nat
  /-- P_CRC_POLY: the generator polynomial, x^8 implicit. -/
  crcPoly  : Byte
  /-- P_CRC_INIT: the initial value of the checksum. -/
  crcInit  : Byte
  /-- P_CONV_EVAL: how the temperature formula is evaluated. -/
  convEval : ConvEval
  deriving DecidableEq, Repr, Inhabited

/-- The range 00_scope.md R6 gives P_CLK_PER_MS: 1 to 53687091. -/
abbrev Params.Legal (p : Params) : Prop := 1 ≤ p.clkPerMs ∧ p.clkPerMs ≤ 53687091

/-- SETTLE_CYCLES = P_SETTLE_MS × P_CLK_PER_MS (00_scope.md R6). -/
def Params.settleCycles (p : Params) : Nat := Config.settleMs.toNat * p.clkPerMs

/-- The defaults 00_scope.md R6 gives P_CRC_POLY, P_CRC_INIT and P_CONV_EVAL. P_CLK_PER_MS has no default there:
1 is the value 95_test_vectors.md runs at (DESIGN CHOICE, log entry 2; unsafe). Only State.reset uses this value;
a statement about all states is a statement about all parameters. -/
def Params.default : Params :=
  { clkPerMs := 1, crcPoly := 0x31, crcInit := 0xFF, convEval := .stepwiseF32 }

/-- What stands on the input ports (10_state.md R44, direction in) in the cycle that ends at an edge. -/
structure Inputs where
  /-- `rst` -/
  rst       : Bool
  /-- `h_wr` -/
  hWr       : Bool
  /-- `h_rd` -/
  hRd       : Bool
  /-- `h_addr` -/
  hAddr     : Byte
  /-- `h_wdata` -/
  hWdata    : Reg32
  /-- `b_req_ready` -/
  bReqReady : Bool
  /-- `b_rsp_valid` -/
  bRspValid : Bool
  /-- `b_rsp_err` -/
  bRspErr   : Bool
  /-- `b_rsp_count` -/
  bRspCount : Byte
  /-- `b_rsp_rdata` -/
  bRspRdata : BitVec 56
  deriving DecidableEq, Repr, Inhabited

/-- A cycle in which nobody drives anything: host NOP, transport not ready and silent, `rst` low. -/
def Inputs.idle : Inputs :=
  { rst := false, hWr := false, hRd := false, hAddr := 0, hWdata := 0, bReqReady := false, bRspValid := false,
    bRspErr := false, bRspCount := 0, bRspRdata := 0 }

/-- FREE VALUE (log entry 3): what the host, the transport and the reset pin drive in the k-th cycle that
State.script does not list. 93_implementation_defined.md row 6: "any value (free draws each cycle)". It has no body,
so nothing can be proved of its value. -/
opaque Config.freeInputs : Nat → Inputs

end Sys2Proof
end

