-- ==== Sys2Proof/Syntax.lean ====
section
/-! DEFINITION. The operations of spec/opcode_table.json. The block has no instruction stream; its "instructions"
are the operations the host and the transport perform on it each cycle (30_encoding.md, first paragraph). -/

namespace Sys2Proof

/-- The host registers of 10_state.md R31, and the reserved offsets as one more. -/
inductive HostReg where
  | ctrl | status | temp | hum | rawHum | rawTemp | frameLo | frameHi | frameLen | crc | timeout | info
  | reserved
  deriving DecidableEq, Repr

/-- One constructor for each mnemonic of spec/opcode_table.json.

The host write operations carry `rd`, the R bit of the same word: a word with W = 1 and R = 1 is the write and a read
of the same register (20_memory.md R64, 30_encoding.md R89). They also carry `lo`, the ignored address bits A[1:0],
and the whole of D, so that no bit of a word is lost. The table gives REG_WR_IGNORED seven rows, one per aligned range
of word indices of ONE operation (43_host_ops.md R308); the operand `a` covers all seven. -/
inductive Instr where
  /-- START (40_sequencer.md R101): W = 1, A[7:2] = 0x00, D[0] = 1. -/
  | start (rd : Bool) (lo : BitVec 2) (d : Reg32)
  /-- DECODE (40_sequencer.md R102): W = 1, A[7:2] = 0x00, D[1:0] = 0b10. -/
  | decode (rd : Bool) (lo : BitVec 2) (d : Reg32)
  /-- CTRL_CFG (43_host_ops.md R302): W = 1, A[7:2] = 0x00, D[1:0] = 0b00. -/
  | ctrlCfg (rd : Bool) (lo : BitVec 2) (d : Reg32)
  /-- STATUS_W1C (43_host_ops.md R303): W = 1, A[7:2] = 0x01. -/
  | statusW1c (rd : Bool) (lo : BitVec 2) (d : Reg32)
  /-- FRAME_LO_WR (43_host_ops.md R304): W = 1, A[7:2] = 0x06. -/
  | frameLoWr (rd : Bool) (lo : BitVec 2) (d : Reg32)
  /-- FRAME_HI_WR (43_host_ops.md R305): W = 1, A[7:2] = 0x07. -/
  | frameHiWr (rd : Bool) (lo : BitVec 2) (d : Reg32)
  /-- FRAME_LEN_WR (43_host_ops.md R306): W = 1, A[7:2] = 0x08. -/
  | frameLenWr (rd : Bool) (lo : BitVec 2) (d : Reg32)
  /-- TIMEOUT_WR (43_host_ops.md R307): W = 1, A[7:2] = 0x0A. -/
  | timeoutWr (rd : Bool) (lo : BitVec 2) (d : Reg32)
  /-- REG_WR_IGNORED (43_host_ops.md R308): W = 1, A[7:2] in 0x02 to 0x05, 0x09, 0x0B, 0x0C to 0x3F. -/
  | regWrIgnored (rd : Bool) (a : Byte) (d : Reg32)
  /-- REG_RD (43_host_ops.md R301): R = 1 with W = 0; D is not used. -/
  | regRd (a : Byte) (d : Reg32)
  /-- NOP (43_host_ops.md R300): W = 0 and R = 0; A and D are not used. -/
  | nop (a : Byte) (d : Reg32)
  /-- BIND (40_sequencer.md R106), presented in BIND_REQ. -/
  | bind
  /-- WRITE_TRIGGER (40_sequencer.md R108), presented in WRITE_REQ. -/
  | writeTrigger
  /-- READ_FRAME (40_sequencer.md R112), presented in READ_REQ. -/
  | readFrame
  /-- RSP_OK (40_sequencer.md R107, R110): E = 0 in BIND_RSP or WRITE_RSP; N and RDATA are not used. -/
  | rspOk (n : Byte) (data : BitVec 56)
  /-- RSP_ERR (40_sequencer.md R107, R109, R113): E = 1 in any RSP state; N and RDATA are not used. -/
  | rspErr (n : Byte) (data : BitVec 56)
  /-- RSP_DATA (40_sequencer.md R113): E = 0 in READ_RSP. -/
  | rspData (n : Byte) (data : BitVec 56)
  deriving DecidableEq, Repr

end Sys2Proof
end

