-- ==== Sys2Proof/WellFormed.lean ====
section
/-! DEFINITION. Which terms of Instr an opcode-table row can spell. The checks are written from the rows' fixed bits
(spec/opcode_table.json), not from the decoder. -/

namespace Sys2Proof

/-- The word index A[7:2] of a host byte offset (20_memory.md R61). -/
def wordIndex (a : Byte) : Nat := a.toNat / 4

/-- The word indices of REG_WR_IGNORED (43_host_ops.md R308). -/
def isIgnoredIndex (k : Nat) : Bool :=
  k == 2 || k == 3 || k == 4 || k == 5 || k == 9 || k == 11 || (12 ≤ k && k ≤ 63)

/-- The bits a row fixes beside its address: the command bits of the three CTRL rows (30_encoding.md R89, R90) and
the address range of REG_WR_IGNORED. Every other operand takes every value of its width. -/
def Instr.wf : Instr → Bool
  | .start _ _ d => d.getLsbD 0
  | .decode _ _ d => !d.getLsbD 0 && d.getLsbD 1
  | .ctrlCfg _ _ d => !d.getLsbD 0 && !d.getLsbD 1
  | .regWrIgnored _ a _ => isIgnoredIndex (wordIndex a)
  | .statusW1c _ _ _ | .frameLoWr _ _ _ | .frameHiWr _ _ _ | .frameLenWr _ _ _ | .timeoutWr _ _ _ => true
  | .regRd _ _ | .nop _ _ => true
  | .bind | .writeTrigger | .readFrame => true
  | .rspOk _ _ | .rspErr _ _ | .rspData _ _ => true

/-- An instruction some row of the table spells. -/
abbrev Instr.WellFormed (i : Instr) : Prop := i.wf = true

end Sys2Proof
end

