-- ==== Sys2Proof/Decode.lean ====
section
/-! DEFINITION. The decoder of the three port formats (30_encoding.md R80 to R84, R89 to R92), total on any words and
any bytes, and the encoder, written from the same tables. -/

namespace Sys2Proof

/-- Why bytes are no word of the opcode table. None of these is reached by a step: every HOSTOP word decodes
(30_encoding.md R89), the block presents three request words only (R82), and every BUSRSP word is a response. -/
inductive DecodeError where
  /-- The byte string is not 5 (BUSREQ), 6 (HOSTOP) or 9 (BUSRSP) bytes long. -/
  | wrongLength
  /-- A bit above the format's width is 1. -/
  | bitsAboveFormat
  /-- Bus request kind 0b11 is reserved (30_encoding.md R83, R92). -/
  | reservedBusOp
  /-- A request word the block never produces (30_encoding.md R82). -/
  | notABlockRequest
  deriving DecidableEq, Repr

/-! ### HOSTOP -/

/-- The register at a host byte offset: A[1:0] is ignored (20_memory.md R61), the map is 10_state.md R31, and every
other offset is reserved (20_memory.md R65). -/
def HostReg.ofOffset (a : Byte) : HostReg :=
  match a.toNat / 4 with
  | 0 => .ctrl
  | 1 => .status
  | 2 => .temp
  | 3 => .hum
  | 4 => .rawHum
  | 5 => .rawTemp
  | 6 => .frameLo
  | 7 => .frameHi
  | 8 => .frameLen
  | 9 => .crc
  | 10 => .timeout
  | 11 => .info
  | _ => .reserved

/-- The operation of a host cycle from its four fields (30_encoding.md R89). START wins over DECODE when both command
bits are 1 (R90). -/
def decodeHostFields (wr rd : Bool) (a : Byte) (d : Reg32) : Instr :=
  match wr, rd with
  | false, false => .nop a d
  | false, true => .regRd a d
  | true, rd =>
    match HostReg.ofOffset a with
    | .ctrl =>
      match d.getLsbD 0, d.getLsbD 1 with
      | true, _ => .start rd (a.extractLsb' 0 2) d
      | false, true => .decode rd (a.extractLsb' 0 2) d
      | false, false => .ctrlCfg rd (a.extractLsb' 0 2) d
    | .status => .statusW1c rd (a.extractLsb' 0 2) d
    | .frameLo => .frameLoWr rd (a.extractLsb' 0 2) d
    | .frameHi => .frameHiWr rd (a.extractLsb' 0 2) d
    | .frameLen => .frameLenWr rd (a.extractLsb' 0 2) d
    | .timeout => .timeoutWr rd (a.extractLsb' 0 2) d
    | .temp | .hum | .rawHum | .rawTemp | .crc | .info | .reserved => .regWrIgnored rd a d

/-- Format HOSTOP: W at bit 41, R at 40, A at 39:32, D at 31:0 (30_encoding.md R80). -/
def decodeHost (w : HostWord) : Instr :=
  decodeHostFields (w.getLsbD 41) (w.getLsbD 40) (w.extractLsb' 32 8) (w.extractLsb' 0 32)

/-- The HOSTOP word of four fields (30_encoding.md R80). -/
def hostWord (wr rd : Bool) (a : Byte) (d : Reg32) : HostWord :=
  BitVec.ofBool wr ++ BitVec.ofBool rd ++ a ++ d

/-! ### BUSREQ -/

/-- Format BUSREQ: OP at 36:35, ADDR at 34:27, LEN at 26:24, WDATA at 23:0 (30_encoding.md R82). The three words the
block produces are BIND, WRITE_TRIGGER and READ_FRAME; kind 0b11 is reserved (R83, R92). -/
def decodeReq (w : ReqWord) : Except DecodeError Instr :=
  let addr : Byte := w.extractLsb' 27 8
  let len : BitVec 3 := w.extractLsb' 24 3
  let wdata : BitVec 24 := w.extractLsb' 0 24
  match (w.extractLsb' 35 2 : BitVec 2).toNat with
  | 0 => if addr = 0x38 ∧ len = 0 ∧ wdata = 0 then .ok .bind else .error .notABlockRequest
  | 1 => if addr = 0x38 ∧ len = 3 ∧ wdata = 0x0033AC then .ok .writeTrigger else .error .notABlockRequest
  | 2 => if addr = 0x38 ∧ len = 7 ∧ wdata = 0 then .ok .readFrame else .error .notABlockRequest
  | _ => .error .reservedBusOp

/-- The BUSREQ word of four fields: OP ++ ADDR ++ LEN ++ WDATA (30_encoding.md R82). -/
def reqWord (op : BitVec 2) (addr : Byte) (len : BitVec 3) (wdata : BitVec 24) : ReqWord :=
  op ++ addr ++ len ++ wdata

/-! ### BUSRSP -/

/-- Format BUSRSP: E at bit 64, N at 63:56, RDATA at 55:0 (30_encoding.md R84). RSP_OK and RSP_DATA have one match and
mask in the table; `reading` says that the response is taken in READ_RSP, which is what tells them apart (the notes of
the two rows; 40_sequencer.md R107, R110, R113). -/
def decodeRsp (reading : Bool) (w : RspWord) : Instr :=
  match w.getLsbD 64, reading with
  | true, _ => .rspErr (w.extractLsb' 56 8) (w.extractLsb' 0 56)
  | false, true => .rspData (w.extractLsb' 56 8) (w.extractLsb' 0 56)
  | false, false => .rspOk (w.extractLsb' 56 8) (w.extractLsb' 0 56)

/-- The BUSRSP word of three fields (30_encoding.md R84). -/
def rspWord (err : Bool) (n : Byte) (data : BitVec 56) : RspWord :=
  BitVec.ofBool err ++ n ++ data

/-! ### All formats -/

/-- Decode a word of any of the three formats. -/
def decode (reading : Bool) : PortWord → Except DecodeError Instr
  | .hostop w => .ok (decodeHost w)
  | .busreq w => decodeReq w
  | .busrsp w => .ok (decodeRsp reading w)

/-- The number whose little-endian bytes these are. -/
def numberOfBytes : List Byte → Nat
  | [] => 0
  | b :: bs => b.toNat + 256 * numberOfBytes bs

/-- The k little-endian bytes of a number. -/
def bytesOfNumber : Nat → Nat → List Byte
  | 0, _ => []
  | k + 1, n => BitVec.ofNat 8 n :: bytesOfNumber k (n / 256)

/-- Decode the bytes of a word, least significant byte first: 5 bytes are a BUSREQ, 6 a HOSTOP, 9 a BUSRSP. A word is
a listing convention (30_encoding.md R80), so its byte order and this reading of the length are the model's (DESIGN
CHOICE, log entry 5). Bytes carry no sequencer state, so an E = 0 response is read by its content: the listing word of
`ok`, all zero, as RSP_OK, and any other as RSP_DATA (DESIGN CHOICE, log entry 5). A step never uses that reading:
it passes its own state to decodeRsp. -/
def decodeBytes (bs : List Byte) : Except DecodeError Instr :=
  let n := numberOfBytes bs
  match bs.length with
  | 5 => if n < 2 ^ 37 then decodeReq (BitVec.ofNat 37 n) else .error .bitsAboveFormat
  | 6 => if n < 2 ^ 42 then .ok (decodeHost (BitVec.ofNat 42 n)) else .error .bitsAboveFormat
  | 9 => if n < 2 ^ 65 then .ok (decodeRsp (n != 0) (BitVec.ofNat 65 n)) else .error .bitsAboveFormat
  | _ => .error .wrongLength

/-- How many bytes the word of a table row of nbits bits takes: 37 bits take 5, 42 take 6, 65 take 9. -/
def tableBytes (nbits : Nat) : Nat :=
  if nbits ≤ 40 then 5 else if nbits ≤ 64 then 6 else 9

/-- The instruction the decoder reads from a word numbered as spec/opcode_table.json numbers it. -/
def decodeTableWord (nbits w : Nat) : Option Instr :=
  match decodeBytes (bytesOfNumber (tableBytes nbits) w) with
  | .ok i => some i
  | .error _ => none

/-! ### The encoder -/

/-- The address of a host register's word index with the ignored low bits. -/
def offsetOf (index : BitVec 6) (lo : BitVec 2) : Byte := index ++ lo

/-- The word of an instruction (30_encoding.md R80, R82, R84 and the rows of spec/opcode_table.json). -/
def encode : Instr → PortWord
  | .start rd lo d => .hostop (hostWord true rd (offsetOf 0x00 lo) d)
  | .decode rd lo d => .hostop (hostWord true rd (offsetOf 0x00 lo) d)
  | .ctrlCfg rd lo d => .hostop (hostWord true rd (offsetOf 0x00 lo) d)
  | .statusW1c rd lo d => .hostop (hostWord true rd (offsetOf 0x01 lo) d)
  | .frameLoWr rd lo d => .hostop (hostWord true rd (offsetOf 0x06 lo) d)
  | .frameHiWr rd lo d => .hostop (hostWord true rd (offsetOf 0x07 lo) d)
  | .frameLenWr rd lo d => .hostop (hostWord true rd (offsetOf 0x08 lo) d)
  | .timeoutWr rd lo d => .hostop (hostWord true rd (offsetOf 0x0A lo) d)
  | .regWrIgnored rd a d => .hostop (hostWord true rd a d)
  | .regRd a d => .hostop (hostWord false true a d)
  | .nop a d => .hostop (hostWord false false a d)
  | .bind => .busreq (reqWord 0b00 Config.sensorAddr 0 0)
  | .writeTrigger => .busreq (reqWord 0b01 Config.sensorAddr 3 0x0033AC)
  | .readFrame => .busreq (reqWord 0b10 Config.sensorAddr 7 0)
  | .rspOk n data => .busrsp (rspWord false n data)
  | .rspErr n data => .busrsp (rspWord true n data)
  | .rspData n data => .busrsp (rspWord false n data)

/-- In which reading of an E = 0 response (see decodeRsp) an instruction occurs: RSP_DATA when the block is in
READ_RSP, every other one when it is not. -/
def Instr.reading : Instr → Bool
  | .rspData _ _ => true
  | .start _ _ _ | .decode _ _ _ | .ctrlCfg _ _ _ | .statusW1c _ _ _ | .frameLoWr _ _ _ | .frameHiWr _ _ _ => false
  | .frameLenWr _ _ _ | .timeoutWr _ _ _ | .regWrIgnored _ _ _ | .regRd _ _ | .nop _ _ => false
  | .bind | .writeTrigger | .readFrame | .rspOk _ _ | .rspErr _ _ => false

end Sys2Proof
end

