-- ==== Sys2Proof/Machine/State.lean ====
section
/-! DEFINITION. The state of the block (10_state.md R20 to R30, R46, R48), of its environment as far as the spec names
it (R44, R49), and the state right after reset (70_reset_and_hazards.md R230). -/

namespace Sys2Proof.Machine

open Sys2Proof

/-- `st`, the sequencer state (10_state.md R21). Its 4-bit encoding is St.code. The encodings 0x9 to 0xF are `unused`:
never entered from reset, and stuck if held (R51, 70_reset_and_hazards.md R233). -/
inductive St where
  | idle | bindReq | bindRsp | writeReq | writeRsp | settle | readReq | readRsp | decode
  /-- The encoding 0x9 + k. -/
  | unused (k : Fin 7)
  deriving DecidableEq, Repr

/-- `mode` (10_state.md R22): 0 is CYCLE, 1 is DECODE_ONLY. -/
inductive Mode where
  | cycle | decodeOnly
  deriving DecidableEq, Repr

/-- `frame[0..6]`, the frame buffer (10_state.md R27). -/
structure Frame where
  b0 : Byte
  b1 : Byte
  b2 : Byte
  b3 : Byte
  b4 : Byte
  b5 : Byte
  b6 : Byte
  deriving DecidableEq, Repr

/-- Everything the spec gives the machine, as plain data. -/
structure State where
  /-- The OPEN parameters (00_scope.md R6): the argument the model takes. No step writes them. -/
  cfg       : Params
  /-- The sequencer registers (10_state.md R21 to R26). -/
  st        : St
  mode      : Mode
  attempt   : BitVec 4
  settleCnt : Reg32
  toCnt     : Reg32
  cancelQ   : Bool
  /-- The frame buffer and its length (R27). -/
  frame     : Frame
  frameLen  : Byte
  /-- The result registers (R28). -/
  rawHum    : BitVec 20
  rawTemp   : BitVec 20
  hum       : Reg32
  temp      : Reg32
  /-- The status registers (R29). -/
  done      : Bool
  ovr       : Bool
  valid     : Bool
  errCode   : BitVec 3
  errCause  : BitVec 3
  errState  : BitVec 4
  /-- The configuration registers (R30). -/
  crcEn     : Bool
  ie        : Bool
  maxRetry  : BitVec 4
  timeout   : Reg32
  /-- The port registers (R46). -/
  hRdata    : Reg32
  hRvalid   : Bool
  /-- The transport's address binding, which the block never reads (R49): the address bound last, if any. -/
  bound     : Option Byte
  /-- The input ports (R44) in the cycle that ends at the edge being taken. -/
  inp       : Inputs
  /-- What the environment drives in the cycles to come, the next one first. -/
  script    : List Inputs
  /-- THE MODEL'S OWN: how many cycles have been drawn from Config.freeInputs. -/
  draws     : Nat
  deriving DecidableEq, Repr

/-- Why a step could fault. There is no constructor: "The block has no traps" (60_exceptions.md R200), no host
encoding is illegal (30_encoding.md R91), and the host port has no error response (20_memory.md R65). A
ProtocolError is no fault of the machine: raising it is a next state (60_exceptions.md R200, R202). -/
inductive Fault : Type
  deriving DecidableEq, Repr

/-- Why the model could have no meaning for an instruction. -/
inductive Refusal where
  /-- An instruction whose arm in Dispatch has no meaning yet, named by its mnemonic. Safe: nothing is claimed of it.
  No arm raises it. -/
  | notModelled (mnemonic : String)
  deriving DecidableEq, Repr

/-- The zeroed frame buffer (70_reset_and_hazards.md R230). -/
def Frame.zero : Frame := { b0 := 0, b1 := 0, b2 := 0, b3 := 0, b4 := 0, b5 := 0, b6 := 0 }

/-- The state after a reset edge, for any parameters: every register of the table of 70_reset_and_hazards.md R230 at its
value there. What is not a register of the block: no binding held, the ports idle, nothing scripted, nothing drawn
(DESIGN CHOICE, log entries 3, 4 and 6). -/
def State.resetWith (p : Params) : State :=
  { cfg := p,
    st := .idle, mode := .cycle, attempt := 0, settleCnt := 0, toCnt := 0, cancelQ := false,
    frame := Frame.zero, frameLen := 0,
    rawHum := 0, rawTemp := 0, hum := 0, temp := 0,
    done := false, ovr := false, valid := false, errCode := 0, errCause := 0, errState := 0,
    crcEn := false, ie := false, maxRetry := 0, timeout := 0,
    hRdata := 0, hRvalid := false,
    bound := none, inp := Inputs.idle, script := [], draws := 0 }

/-- The machine right after reset, at the default parameters (log entry 2). -/
def State.reset : State := State.resetWith Params.default

end Sys2Proof.Machine
end

