-- ==== Sys2Proof/Machine/Conversion.lean ====
section
/-! DEFINITION. The fixed-to-float conversion (42_conversion.md R180 to R186). An exact value is an integer number of
units of 2^-k; every value the formulas reach is one of 2^-20. -/

namespace Sys2Proof.Machine

open Sys2Proof

/-- The integer nearest to n among those with at most 24 significant bits, ties to the even significand: the rounding
of 42_conversion.md R181 for a magnitude of n units. -/
def rne24 (n : Nat) : Nat :=
  let unit := 2 ^ (n.log2 - 23)
  let q := n / unit
  let r := n % unit
  (if unit < 2 * r ∨ (2 * r = unit ∧ q % 2 = 1) then q + 1 else q) * unit

/-- The binary32 pattern of ± n units of 2^-k, for n with at most 24 significant bits and a result in the normal range,
which every result of R182 to R184 is in (42_conversion.md R180, R186). Zero is +0.0 (R181). -/
def packF32 (neg : Bool) (n k : Nat) : Reg32 :=
  if n = 0 then 0
  else
    let e := n.log2
    let significand := if e ≤ 23 then n * 2 ^ (23 - e) else n / 2 ^ (e - 23)
    BitVec.ofBool neg ++ BitVec.ofNat 8 (e + 127 - k) ++ BitVec.ofNat 23 (significand - 2 ^ 23)

/-- rne32 of m units of 2^-k (42_conversion.md R181): the nearest binary32 value, ties to even, an exact zero +0.0. -/
def rne32 (m : Int) (k : Nat) : Reg32 := packF32 (decide (m < 0)) (rne24 m.natAbs) k

/-- hum32 (42_conversion.md R182): rne32(raw_h × 100 / 2^20). -/
def hum32 (rawH : BitVec 20) : Reg32 := rne32 (rawH.toNat * 100 : Nat) 20

/-- temp32 under STEPWISE_F32 (42_conversion.md R183): q = raw_t / 2^20 is exact, t1 = rne32(q × 200) is the first
rounding, rne32(t1 − 50) the second. t1 is an integer number of units of 2^-20. -/
def temp32Stepwise (rawT : BitVec 20) : Reg32 :=
  let t1 : Nat := rne24 (rawT.toNat * 200)
  rne32 ((t1 : Int) - 50 * 2 ^ 20) 20

/-- temp32 under EXACT_THEN_F32 (42_conversion.md R184): one rounding of the exact value. -/
def temp32Exact (rawT : BitVec 20) : Reg32 :=
  rne32 (((rawT.toNat * 200 : Nat) : Int) - 50 * 2 ^ 20) 20

/-- temp32 under the P_CONV_EVAL of the instance (42_conversion.md R183 to R185). -/
def temp32 (ev : ConvEval) (rawT : BitVec 20) : Reg32 :=
  match ev with
  | .stepwiseF32 => temp32Stepwise rawT
  | .exactThenF32 => temp32Exact rawT

end Sys2Proof.Machine
end

