-- ==== Sys2Proof/Machine/Operands.lean ====
section
/-! DEFINITION. Operand forms: the bits of a CTRL write, the bytes of the frame buffer as the host registers and the
bus pack them, and the encodings of `st` and of the error codes. -/

namespace Sys2Proof.Machine

open Sys2Proof

/-- The 4-bit encoding of `st` (10_state.md R21; 0x9 to 0xF are the unused ones). -/
def St.code : St → BitVec 4
  | .idle => 0x0
  | .bindReq => 0x1
  | .bindRsp => 0x2
  | .writeReq => 0x3
  | .writeRsp => 0x4
  | .settle => 0x5
  | .readReq => 0x6
  | .readRsp => 0x7
  | .decode => 0x8
  | .unused k => BitVec.ofNat 4 (9 + k.val)

/-- A REQ state: a request is presented (10_state.md R45). -/
def St.isReq : St → Bool
  | .bindReq | .writeReq | .readReq => true
  | .idle | .bindRsp | .writeRsp | .settle | .readRsp | .decode | .unused _ => false

/-- A RSP state: a response is awaited (40_sequencer.md R118). -/
def St.isRsp : St → Bool
  | .bindRsp | .writeRsp | .readRsp => true
  | .idle | .bindReq | .writeReq | .settle | .readReq | .decode | .unused _ => false

/-- The error kinds and causes that occur together (30_encoding.md R87, R88: "Each cause occurs with only the one
code shown"). -/
inductive ProtocolError where
  /-- BUS_FAULT with cause TRANSPORT. -/
  | transport
  /-- BUS_FAULT with cause TIMEOUT. -/
  | timeout
  /-- FRAME_LENGTH_FAULT with cause LENGTH. -/
  | length
  /-- BUSY_FAULT with cause BUSY. -/
  | busy
  /-- MALFORMED_FRAME with cause CHECKSUM. -/
  | checksum
  deriving DecidableEq, Repr

/-- `err_code` (30_encoding.md R87). -/
def ProtocolError.code : ProtocolError → BitVec 3
  | .transport => 1
  | .timeout => 1
  | .length => 2
  | .busy => 3
  | .checksum => 4

/-- `err_cause` (30_encoding.md R88). -/
def ProtocolError.cause : ProtocolError → BitVec 3
  | .transport => 1
  | .timeout => 2
  | .length => 3
  | .busy => 4
  | .checksum => 5

/-- CRC_EN of a CTRL write (30_encoding.md R81). -/
def ctrlCrcEn (d : Reg32) : Bool := d.getLsbD 3

/-- IE of a CTRL write (30_encoding.md R81). -/
def ctrlIe (d : Reg32) : Bool := d.getLsbD 4

/-- MAX_RETRY of a CTRL write (30_encoding.md R81). -/
def ctrlMaxRetry (d : Reg32) : BitVec 4 := d.extractLsb' 8 4

/-- FRAME_LO as read: frame[3] ++ frame[2] ++ frame[1] ++ frame[0] (10_state.md R38). -/
def Frame.lo (f : Frame) : Reg32 := f.b3 ++ f.b2 ++ f.b1 ++ f.b0

/-- FRAME_HI as read: 0x00 ++ frame[6] ++ frame[5] ++ frame[4] (10_state.md R39). -/
def Frame.hi (f : Frame) : Reg32 := (0 : Byte) ++ f.b6 ++ f.b5 ++ f.b4

/-- The effect of a FRAME_LO write on the buffer (10_state.md R38). -/
def Frame.setLo (f : Frame) (d : Reg32) : Frame :=
  { f with b0 := d.extractLsb' 0 8, b1 := d.extractLsb' 8 8, b2 := d.extractLsb' 16 8, b3 := d.extractLsb' 24 8 }

/-- The effect of a FRAME_HI write on the buffer; bits 31:24 are ignored (10_state.md R39). -/
def Frame.setHi (f : Frame) (d : Reg32) : Frame :=
  { f with b4 := d.extractLsb' 0 8, b5 := d.extractLsb' 8 8, b6 := d.extractLsb' 16 8 }

/-- Byte k of a response's RDATA, bits 8k+7:8k (20_memory.md R67). -/
def rdataByte (data : BitVec 56) (k : Nat) : Byte := data.extractLsb' (8 * k) 8

/-- The frame a READ response of count n leaves in the buffer: the first min(n, 7) bytes, the rest 0x00
(40_sequencer.md R113). -/
def captureFrame (n : Byte) (data : BitVec 56) : Frame :=
  let byte (k : Nat) : Byte := if k < n.toNat then rdataByte data k else 0
  { b0 := byte 0, b1 := byte 1, b2 := byte 2, b3 := byte 3, b4 := byte 4, b5 := byte 5, b6 := byte 6 }

/-- The bytes of the frame buffer in order. -/
def Frame.bytes (f : Frame) : List Byte := [f.b0, f.b1, f.b2, f.b3, f.b4, f.b5, f.b6]

end Sys2Proof.Machine
end

