-- ==== Sys2Proof/Machine/FrameDecoder.lean ====
section
/-! DEFINITION. The frame decoder: checksum, field extraction and the decode function (41_decoder.md R150 to R164). -/

namespace Sys2Proof.Machine

open Sys2Proof

/-- One shift of the checksum register (41_decoder.md R155, the inner loop). -/
def crcShift (poly c : Byte) : Byte :=
  if c.getLsbD 7 then (c <<< 1) ^^^ poly else c <<< 1

/-- k shifts. -/
def crcShifts (poly : Byte) : Nat → Byte → Byte
  | 0, c => c
  | k + 1, c => crcShifts poly k (crcShift poly c)

/-- One byte of the checksum: XOR it in, then 8 shifts (41_decoder.md R155). -/
def crcByte (poly c b : Byte) : Byte := crcShifts poly 8 (c ^^^ b)

/-- crc8 (41_decoder.md R155) with the polynomial and the initial value of the instance. -/
def crc8 (poly init : Byte) (bs : List Byte) : Byte := bs.foldl (crcByte poly) init

/-- The checksum of frame[0..5] (41_decoder.md R154, R155). -/
def frameCrc (p : Params) (f : Frame) : Byte := crc8 p.crcPoly p.crcInit [f.b0, f.b1, f.b2, f.b3, f.b4, f.b5]

/-- raw_h := frame[1] ++ frame[2] ++ frame[3][7:4] (41_decoder.md R157). -/
def rawHumidity (f : Frame) : BitVec 20 := f.b1 ++ f.b2 ++ (f.b3.extractLsb' 4 4 : BitVec 4)

/-- raw_t := frame[3][3:0] ++ frame[4] ++ frame[5] (41_decoder.md R158). -/
def rawTemperature (f : Frame) : BitVec 20 := (f.b3.extractLsb' 0 4 : BitVec 4) ++ f.b4 ++ f.b5

/-- The decoder's result (41_decoder.md R150). -/
inductive DecodeResult where
  | ok (rawH rawT : BitVec 20) (humBits tempBits : Reg32)
  | err (e : ProtocolError)
  deriving DecidableEq, Repr

/-- decode(frame, len, crc_en) (41_decoder.md R150, R151): length, then status bit, then, with CRC_EN, the checksum;
the first failing check decides, and only a frame that passes all of them is converted (42_conversion.md R189). -/
def decodeFrame (p : Params) (f : Frame) (len : Byte) (crcEn : Bool) : DecodeResult :=
  if len ≠ Config.frameLen then .err .length
  else if f.b0.getLsbD 0 then .err .busy
  else if crcEn ∧ frameCrc p f ≠ f.b6 then .err .checksum
  else .ok (rawHumidity f) (rawTemperature f) (hum32 (rawHumidity f)) (temp32 p.convEval (rawTemperature f))

end Sys2Proof.Machine
end

