-- ==== Sys2Proof/Machine/Flags.lean ====
section
/-! DEFINITION. The values the host registers read as, the STATUS fields among them (10_state.md R32 to R43), and the
output ports (R44 to R47). -/

namespace Sys2Proof.Machine

open Sys2Proof

/-- STATUS.BUSY: 1 iff `st` ≠ IDLE (10_state.md R37). -/
def State.busy (s : State) : Bool := !(s.st == .idle)

/-- CTRL as read: the command bits and the reserved bits read 0 (10_state.md R32). -/
def ctrlValue (s : State) : Reg32 :=
  (0 : BitVec 20) ++ s.maxRetry ++ (0 : BitVec 3) ++ BitVec.ofBool s.ie ++ BitVec.ofBool s.crcEn ++ (0 : BitVec 3)

/-- STATUS as read (10_state.md R37): STATE at 27:24, ATTEMPT at 19:16, ERR_STATE at 15:12, ERR_CAUSE at 10:8, ERR_CODE
at 6:4, VALID, OVR, DONE, BUSY at 3 to 0, every other bit 0. -/
def statusValue (s : State) : Reg32 :=
  (0 : BitVec 4) ++ s.st.code ++ (0 : BitVec 4) ++ s.attempt ++ s.errState ++ (0 : BitVec 1) ++ s.errCause ++
    (0 : BitVec 1) ++ s.errCode ++ BitVec.ofBool s.valid ++ BitVec.ofBool s.ovr ++ BitVec.ofBool s.done ++
    BitVec.ofBool s.busy

/-- CRC as read, combinational from the frame buffer (10_state.md R41): CRC_MATCH at 16, CRC_RX at 15:8, CRC_CALC at
7:0. -/
def crcValue (s : State) : Reg32 :=
  (0 : BitVec 15) ++ BitVec.ofBool (frameCrc s.cfg s.frame == s.frame.b6) ++ s.frame.b6 ++ frameCrc s.cfg s.frame

/-- INFO (10_state.md R42): VERSION, SETTLE_MS, FRAME_LEN, SENSOR_ADDR. -/
def infoValue : Reg32 := Config.version ++ Config.settleMs ++ Config.frameLen ++ Config.sensorAddr

/-- The value a host register reads as (10_state.md R32 to R43; a reserved offset reads 0, 20_memory.md R65). -/
def readReg (s : State) : HostReg → Reg32
  | .ctrl => ctrlValue s
  | .status => statusValue s
  | .temp => s.temp
  | .hum => s.hum
  | .rawHum => (0 : BitVec 12) ++ s.rawHum
  | .rawTemp => (0 : BitVec 12) ++ s.rawTemp
  | .frameLo => s.frame.lo
  | .frameHi => s.frame.hi
  | .frameLen => (0 : BitVec 24) ++ s.frameLen
  | .crc => crcValue s
  | .timeout => s.timeout
  | .info => infoValue
  | .reserved => 0

/-- MemRead(off, 4) over the state given (20_memory.md R61, R62). -/
def memRead (s : State) (off : Byte) : Reg32 := readReg s (HostReg.ofOffset off)

/-- `irq` = `done` AND `ie` (10_state.md R47, 60_exceptions.md R207). -/
def State.irq (s : State) : Bool := s.done && s.ie

/-- The fields of a presented request. -/
structure Request where
  op    : BitVec 2
  addr  : Byte
  len   : BitVec 3
  wdata : BitVec 24
  deriving DecidableEq, Repr

/-- The trigger payload as `b_req_wdata` carries it: byte k at bits 8k+7:8k (10_state.md R44, R45). -/
def triggerWdata : BitVec 24 := BitVec.ofNat 24 (numberOfBytes Config.triggerBytes)

/-- The request outputs, a function of `st` alone (10_state.md R45). `none` stands for `b_req_valid` = 0. -/
def St.request : St → Option Request
  | .bindReq => some { op := 0b00, addr := Config.sensorAddr, len := 0, wdata := 0 }
  | .writeReq => some { op := 0b01, addr := Config.sensorAddr, len := 3, wdata := triggerWdata }
  | .readReq => some { op := 0b10, addr := Config.sensorAddr, len := 7, wdata := 0 }
  | .idle | .bindRsp | .writeRsp | .settle | .readRsp | .decode | .unused _ => none

/-- The presented request as a BUSREQ word (30_encoding.md R82). -/
def Request.word (r : Request) : ReqWord := reqWord r.op r.addr r.len r.wdata

/-- The output ports of 10_state.md R44. -/
structure Outputs where
  hRdata    : Reg32
  hRvalid   : Bool
  irq       : Bool
  bReqValid : Bool
  bReqOp    : BitVec 2
  bReqAddr  : Byte
  bReqLen   : BitVec 3
  bReqWdata : BitVec 24
  bCancel   : Bool
  deriving DecidableEq, Repr

/-- The output ports in a state: all request fields are 0 when no request is presented (10_state.md R44 to R47, R26). -/
def State.outputs (s : State) : Outputs :=
  let r := s.st.request.getD { op := 0, addr := 0, len := 0, wdata := 0 }
  { hRdata := s.hRdata, hRvalid := s.hRvalid, irq := s.irq,
    bReqValid := s.st.request.isSome, bReqOp := r.op, bReqAddr := r.addr, bReqLen := r.len, bReqWdata := r.wdata,
    bCancel := s.cancelQ }

end Sys2Proof.Machine
end

