-- ==== Sys2Proof/Machine/Ops.lean ====
section
/-! DEFINITION. The shared operations: host reads and writes (20_memory.md R62, R63), raising a ProtocolError, the retry
decision and completion (the block's analogue of taking an exception and of returning: 60_exceptions.md R200, R202;
40_sequencer.md R104, R116, R120, R121), the timeout, and the reset edge. -/

namespace Sys2Proof.Machine

open Sys2Proof

/-! ### The host port -/

/-- The sampled host read (10_state.md R46, 43_host_ops.md R301): with R = 1, `h_rdata` takes MemRead of the pre-edge
state and `h_rvalid` is set; with R = 0, `h_rvalid` is cleared and `h_rdata` kept. -/
def hostRead (rd : Bool) (off : Byte) (s : State) : State :=
  { s with hRdata := if rd then memRead s off else s.hRdata, hRvalid := rd }

/-- The configuration fields of a CTRL write (10_state.md R32, 43_host_ops.md R302): IE always, CRC_EN and MAX_RETRY
only when `st` = IDLE. -/
def writeConfig (d : Reg32) (s : State) : State :=
  { s with
    ie := ctrlIe d,
    crcEn := if s.st = .idle then ctrlCrcEn d else s.crcEn,
    maxRetry := if s.st = .idle then ctrlMaxRetry d else s.maxRetry }

/-- The error record cleared: NONE, NONE, 0x0 (40_sequencer.md R101, R102, R121). -/
def clearError (s : State) : State := { s with errCode := 0, errCause := 0, errState := 0 }

/-- A command begins (40_sequencer.md R101, R102): `mode`, attempt 0, DONE cleared, error record cleared. -/
def beginCommand (m : Mode) (s : State) : State := clearError { s with mode := m, attempt := 0, done := false }

/-- begin_attempt() (40_sequencer.md R104). -/
def beginAttempt (s : State) : State := { s with st := .bindReq, toCnt := s.timeout }

/-- START (40_sequencer.md R101, R103), on a state whose configuration fields the same write has set. -/
def startCommand (s : State) : State :=
  if s.st = .idle then beginAttempt (beginCommand .cycle s) else { s with ovr := true }

/-- DECODE (40_sequencer.md R102, R103). -/
def decodeCommand (s : State) : State :=
  if s.st = .idle then { beginCommand .decodeOnly s with st := .decode } else { s with ovr := true }

/-- The write effect of STATUS (10_state.md R37, 43_host_ops.md R303). -/
def writeStatus (d : Reg32) (s : State) : State :=
  { s with done := s.done && !d.getLsbD 1, ovr := s.ovr && !d.getLsbD 2 }

/-- The write effect of FRAME_LO (10_state.md R38). -/
def writeFrameLo (d : Reg32) (s : State) : State :=
  if s.st = .idle then { s with frame := s.frame.setLo d } else s

/-- The write effect of FRAME_HI (10_state.md R39). -/
def writeFrameHi (d : Reg32) (s : State) : State :=
  if s.st = .idle then { s with frame := s.frame.setHi d } else s

/-- The write effect of FRAME_LEN (10_state.md R40). -/
def writeFrameLen (d : Reg32) (s : State) : State :=
  if s.st = .idle then { s with frameLen := d.extractLsb' 0 8 } else s

/-- The write effect of TIMEOUT (10_state.md R43). -/
def writeTimeout (d : Reg32) (s : State) : State :=
  if s.st = .idle then { s with timeout := d } else s

/-! ### Errors, retry and completion -/

/-- The error record of 60_exceptions.md R202: the code, the cause and the pre-edge `st`. -/
def recordError (e : ProtocolError) (s : State) : State :=
  { s with errCode := e.code, errCause := e.cause, errState := s.st.code }

/-- The retry decision (40_sequencer.md R120). -/
def retryOrFinish (s : State) : State :=
  if s.mode = .cycle ∧ s.attempt < s.maxRetry then beginAttempt { s with attempt := s.attempt + 1 }
  else { s with st := .idle, done := true }

/-- raise ProtocolError(code, cause) (60_exceptions.md R200, R202; 00_scope.md R9): the block's analogue of taking an
exception. -/
def raise (e : ProtocolError) (s : State) : State := retryOrFinish (recordError e s)

/-- Complete(raw_h, raw_t, hum_bits, temp_bits), the success procedure (40_sequencer.md R121). -/
def complete (rawH rawT : BitVec 20) (humBits tempBits : Reg32) (s : State) : State :=
  { clearError s with
    rawHum := rawH, rawTemp := rawT, hum := humBits, temp := tempBits, valid := true, st := .idle, done := true }

/-! ### The bus side -/

/-- Whether the transport has accepted the request of the transaction by this edge (40_sequencer.md R116). -/
def accepted (s : State) : Bool := s.st.isRsp || (s.st.isReq && s.inp.bReqReady)

/-- timeout() (40_sequencer.md R116): a request the transport accepted is cancelled, and BUS_FAULT/TIMEOUT raised. -/
def takeTimeout (s : State) : State :=
  raise .timeout (if accepted s then { s with cancelQ := true } else s)

/-- `to_cnt` decrements if it is above 1 (40_sequencer.md R115, item 3). -/
def countDown (s : State) : State := if 1 < s.toCnt then { s with toCnt := s.toCnt - 1 } else s

/-- A REQ state's edge (40_sequencer.md R106, R108, R112): the timeout first, else the count, and the move to the RSP
state `next` when the transport accepts. -/
def requestEdge (next : St) (s : State) : State :=
  if s.toCnt = 1 then takeTimeout s
  else if s.inp.bReqReady then { countDown s with st := next } else countDown s

/-- A RSP state's edge without a response (40_sequencer.md R107, R110, R113). -/
def waitEdge (s : State) : State := if s.toCnt = 1 then takeTimeout s else countDown s

/-- A successful BIND response (40_sequencer.md R107). The transport now holds the binding (10_state.md R49). -/
def bindDone (s : State) : State :=
  { s with st := .writeReq, toCnt := s.timeout, bound := some Config.sensorAddr }

/-- A successful WRITE response (40_sequencer.md R110). -/
def writeDone (s : State) : State :=
  { s with st := .settle, settleCnt := BitVec.ofNat 32 (s.cfg.settleCycles - 1) }

/-- A READ response with data (40_sequencer.md R113). -/
def readDone (n : Byte) (data : BitVec 56) (s : State) : State :=
  { s with frame := captureFrame n data, frameLen := n, st := .decode }

/-- A response sampled at an edge (40_sequencer.md R107, R109, R110, R113). Outside the RSP states it has no effect and
is not remembered (R118). Nothing but `st` says whose response it is: a stale one, to a request cancelled or accepted
before a reset, is taken as that of the RSP state it arrives in (R130; 70_reset_and_hazards.md R234). -/
def respond (err : Bool) (n : Byte) (data : BitVec 56) (s : State) : State :=
  if s.st.isRsp && err then raise .transport s
  else
    match s.st with
    | .bindRsp => bindDone s
    | .writeRsp => writeDone s
    | .readRsp => readDone n data s
    | .idle | .bindReq | .writeReq | .settle | .readReq | .decode | .unused _ => s

/-! ### The states that read no port -/

/-- SETTLE (40_sequencer.md R111). -/
def settleEdge (s : State) : State :=
  if s.settleCnt = 0 then { s with st := .readReq, toCnt := s.timeout }
  else { s with settleCnt := s.settleCnt - 1 }

/-- DECODE (40_sequencer.md R114). -/
def decodeEdge (s : State) : State :=
  match decodeFrame s.cfg s.frame s.frameLen s.crcEn with
  | .ok rawH rawT humBits tempBits => complete rawH rawT humBits tempBits s
  | .err e => raise e s

/-! ### Reset -/

/-- An edge with `rst` = 1 (70_reset_and_hazards.md R230): every register of the block takes its reset value and
nothing else happens. Reset reaches neither the parameters (R230) nor the transport (R234). -/
def resetEdge (s : State) : State :=
  { State.resetWith s.cfg with bound := s.bound, inp := s.inp, script := s.script, draws := s.draws }

end Sys2Proof.Machine
end

