-- ==== Sys2Proof/Machine/BusOps.lean ====
section
/-! DEFINITION. The meanings of the bus requests and of the response forms (40_sequencer.md R106 to R113): what each does
at its edge. A request exists only in the state that presents it (10_state.md R45), a response acts only in a RSP state
(40_sequencer.md R118); in every other state it has no effect. -/

namespace Sys2Proof.Machine

open Sys2Proof

/-- BIND (40_sequencer.md R106). -/
def execBind (s : State) : Host.Outcome State Fault Refusal :=
  .next (if s.st = .bindReq then requestEdge .bindRsp s else s)

/-- WRITE_TRIGGER (40_sequencer.md R108). -/
def execWriteTrigger (s : State) : Host.Outcome State Fault Refusal :=
  .next (if s.st = .writeReq then requestEdge .writeRsp s else s)

/-- READ_FRAME (40_sequencer.md R112). -/
def execReadFrame (s : State) : Host.Outcome State Fault Refusal :=
  .next (if s.st = .readReq then requestEdge .readRsp s else s)

/-- RSP_OK (40_sequencer.md R107, R110). The word is that of RSP_DATA, and the state tells them apart, so in READ_RSP it
is a READ response with data (R113); the decoder gives that one the name RSP_DATA. -/
def execRspOk (n : Byte) (data : BitVec 56) (s : State) : Host.Outcome State Fault Refusal :=
  .next (respond false n data s)

/-- RSP_ERR (40_sequencer.md R107, R109, R113). -/
def execRspErr (n : Byte) (data : BitVec 56) (s : State) : Host.Outcome State Fault Refusal :=
  .next (respond true n data s)

/-- RSP_DATA (40_sequencer.md R113). Outside READ_RSP the same word is RSP_OK (see execRspOk). -/
def execRspData (n : Byte) (data : BitVec 56) (s : State) : Host.Outcome State Fault Refusal :=
  .next (respond false n data s)

end Sys2Proof.Machine
end

