-- ==== Sys2Proof/Machine/HostOps.lean ====
section
/-! DEFINITION. The meanings of the host operations (40_sequencer.md R101, R102; 43_host_ops.md R300 to R308): what each
does at its edge through the host port. The read of a word with R = 1 samples the pre-edge state, so it comes first
(20_memory.md R64). -/

namespace Sys2Proof.Machine

open Sys2Proof

/-- START (40_sequencer.md R101, R103; the configuration fields of the same write, 10_state.md R32). -/
def execStart (rd : Bool) (lo : BitVec 2) (d : Reg32) (s : State) : Host.Outcome State Fault Refusal :=
  .next (startCommand (writeConfig d (hostRead rd (offsetOf 0x00 lo) s)))

/-- DECODE (40_sequencer.md R102, R103; 10_state.md R32). -/
def execDecode (rd : Bool) (lo : BitVec 2) (d : Reg32) (s : State) : Host.Outcome State Fault Refusal :=
  .next (decodeCommand (writeConfig d (hostRead rd (offsetOf 0x00 lo) s)))

/-- CTRL_CFG (43_host_ops.md R302). -/
def execCtrlCfg (rd : Bool) (lo : BitVec 2) (d : Reg32) (s : State) : Host.Outcome State Fault Refusal :=
  .next (writeConfig d (hostRead rd (offsetOf 0x00 lo) s))

/-- STATUS_W1C (43_host_ops.md R303). -/
def execStatusW1c (rd : Bool) (lo : BitVec 2) (d : Reg32) (s : State) : Host.Outcome State Fault Refusal :=
  .next (writeStatus d (hostRead rd (offsetOf 0x01 lo) s))

/-- FRAME_LO_WR (43_host_ops.md R304). -/
def execFrameLoWr (rd : Bool) (lo : BitVec 2) (d : Reg32) (s : State) : Host.Outcome State Fault Refusal :=
  .next (writeFrameLo d (hostRead rd (offsetOf 0x06 lo) s))

/-- FRAME_HI_WR (43_host_ops.md R305). -/
def execFrameHiWr (rd : Bool) (lo : BitVec 2) (d : Reg32) (s : State) : Host.Outcome State Fault Refusal :=
  .next (writeFrameHi d (hostRead rd (offsetOf 0x07 lo) s))

/-- FRAME_LEN_WR (43_host_ops.md R306). -/
def execFrameLenWr (rd : Bool) (lo : BitVec 2) (d : Reg32) (s : State) : Host.Outcome State Fault Refusal :=
  .next (writeFrameLen d (hostRead rd (offsetOf 0x08 lo) s))

/-- TIMEOUT_WR (43_host_ops.md R307). -/
def execTimeoutWr (rd : Bool) (lo : BitVec 2) (d : Reg32) (s : State) : Host.Outcome State Fault Refusal :=
  .next (writeTimeout d (hostRead rd (offsetOf 0x0A lo) s))

/-- REG_WR_IGNORED (43_host_ops.md R308): the write changes nothing. -/
def execRegWrIgnored (rd : Bool) (a : Byte) (_d : Reg32) (s : State) : Host.Outcome State Fault Refusal :=
  .next (hostRead rd a s)

/-- REG_RD (43_host_ops.md R301). -/
def execRegRd (a : Byte) (_d : Reg32) (s : State) : Host.Outcome State Fault Refusal :=
  .next (hostRead true a s)

/-- NOP (43_host_ops.md R300): `h_rvalid <- 0`. -/
def execNop (a : Byte) (_d : Reg32) (s : State) : Host.Outcome State Fault Refusal :=
  .next (hostRead false a s)

end Sys2Proof.Machine
end

