-- ==== Sys2Proof/Machine/Dispatch.lean ====
section
/-! DEFINITION. One arm per constructor of Instr. -/

namespace Sys2Proof.Machine
open Sys2Proof

def exec (i : Instr) (s : State) : Host.Outcome State Fault Refusal :=
  match i with
  | .start rd lo d => Sys2Proof.Machine.execStart rd lo d s
  | .decode rd lo d => Sys2Proof.Machine.execDecode rd lo d s
  | .ctrlCfg rd lo d => Sys2Proof.Machine.execCtrlCfg rd lo d s
  | .statusW1c rd lo d => Sys2Proof.Machine.execStatusW1c rd lo d s
  | .frameLoWr rd lo d => Sys2Proof.Machine.execFrameLoWr rd lo d s
  | .frameHiWr rd lo d => Sys2Proof.Machine.execFrameHiWr rd lo d s
  | .frameLenWr rd lo d => Sys2Proof.Machine.execFrameLenWr rd lo d s
  | .timeoutWr rd lo d => Sys2Proof.Machine.execTimeoutWr rd lo d s
  | .regWrIgnored rd a d => Sys2Proof.Machine.execRegWrIgnored rd a d s
  | .regRd a d => Sys2Proof.Machine.execRegRd a d s
  | .nop a d => Sys2Proof.Machine.execNop a d s
  | .bind => Sys2Proof.Machine.execBind s
  | .writeTrigger => Sys2Proof.Machine.execWriteTrigger s
  | .readFrame => Sys2Proof.Machine.execReadFrame s
  | .rspOk n data => Sys2Proof.Machine.execRspOk n data s
  | .rspErr n data => Sys2Proof.Machine.execRspErr n data s
  | .rspData n data => Sys2Proof.Machine.execRspData n data s

end Sys2Proof.Machine
end

