-- ==== Sys2Proof/Machine/Edge.lean ====
section
/-! DEFINITION. One rising edge of `clk` (40_sequencer.md R100): what the input ports carry, which operations that makes,
and how the edge composes them.

R100 defines the edge in the order host read, state rule, host write, every condition on pre-edge values
(00_scope.md R8). The model runs the host operation first and the state rule on its result (DEDUCED, log entry 1):
outside IDLE a host operation writes only `ie`, `ovr`, `done`, `h_rdata` and `h_rvalid`, of which the state rules read
none, and the state rule is chosen by the pre-edge `st`; `done` is the one register both can write, and there the state
rule's set wins (60_exceptions.md R206), as the later of the two. -/

namespace Sys2Proof.Machine

open Sys2Proof

/-- The next cycle's inputs reach the ports: the first the script lists, or, where it lists none, a free draw (log
entry 3). -/
def loadInputs (s : State) : State :=
  match s.script with
  | x :: rest => { s with inp := x, script := rest }
  | [] => { s with inp := Config.freeInputs s.draws, draws := s.draws + 1 }

/-- The HOSTOP word on the host port (30_encoding.md R80). -/
def Inputs.hostWord (x : Inputs) : HostWord := Sys2Proof.hostWord x.hWr x.hRd x.hAddr x.hWdata

/-- The BUSRSP word on the bus port (30_encoding.md R84). -/
def Inputs.rspWord (x : Inputs) : RspWord := Sys2Proof.rspWord x.bRspErr x.bRspCount x.bRspRdata

/-- The host operation of the cycle; every cycle has exactly one, NOP included (30_encoding.md R89, R95). -/
def hostInstr (s : State) : Instr := decodeHost (Inputs.hostWord s.inp)

/-- The bus operation of the cycle, if any: in a REQ state the request the block presents, in a RSP state the response
that `b_rsp_valid` shows (10_state.md R45; 40_sequencer.md R118). -/
def busInstr (s : State) : Option Instr :=
  match s.st.request with
  | some r =>
    match decodeReq r.word with
    | .ok i => some i
    | .error _ => none
  | none =>
    if s.st.isRsp && s.inp.bRspValid then some (decodeRsp (s.st == .readRsp) (Inputs.rspWord s.inp)) else none

/-- The rule of a state at an edge that carries no bus operation: SETTLE counts, DECODE decodes, a RSP state waits;
IDLE has none (40_sequencer.md R105), and neither have the unused encodings, which are stuck
(70_reset_and_hazards.md R233). A REQ state always carries its request. -/
def quietEdge (pre : St) (s : State) : State :=
  match pre with
  | .settle => settleEdge s
  | .decode => decodeEdge s
  | .bindRsp | .writeRsp | .readRsp => waitEdge s
  | .idle | .unused _ => s
  | .bindReq | .writeReq | .readReq => s

/-- Step 3 of R100 for the pre-edge state `pre`, on the state the host operation left. -/
def sequencerEdge (pre s : State) : Host.Outcome State Fault Refusal :=
  match busInstr pre with
  | some j => exec j s
  | none => .next (quietEdge pre.st s)

/-- One edge (40_sequencer.md R100). `cancel_q` is 0 after it unless a timeout sets it (R117). -/
def edge (s : State) : Host.Outcome State Fault Refusal :=
  if s.inp.rst then .next (resetEdge s)
  else
    match exec (hostInstr s) { s with cancelQ := false } with
    | .next s' => sequencerEdge s s'
    | .fault r => .fault r
    | .refused r => .refused r

/-- The inputs of a cycle that presents a HOSTOP word and nothing else. -/
def Inputs.ofHostWord (w : HostWord) : Inputs :=
  { Inputs.idle with
    hWr := w.getLsbD 41, hRd := w.getLsbD 40, hAddr := w.extractLsb' 32 8, hWdata := w.extractLsb' 0 32 }

/-- The inputs of a cycle that presents a BUSRSP word and nothing else. -/
def Inputs.ofRspWord (w : RspWord) : Inputs :=
  { Inputs.idle with
    bRspValid := true, bRspErr := w.getLsbD 64, bRspCount := w.extractLsb' 56 8, bRspRdata := w.extractLsb' 0 56 }

/-- The inputs of a cycle in which the transport is ready. -/
def Inputs.ready : Inputs := { Inputs.idle with bReqReady := true }

/-- A state whose next step runs the given word and, beside the NOP of a cycle without a host operation, nothing else
(log entry 5): a HOSTOP word stands on the host port; a request word needs the state that presents it and a transport
that accepts; a response word needs a RSP state that takes that form. -/
def presentWord (i : Instr) (w : PortWord) (s : State) : State :=
  match w with
  | .hostop w => { s with script := Inputs.ofHostWord w :: s.script }
  | .busreq _ =>
    match i with
    | .writeTrigger => { s with st := .writeReq, script := Inputs.ready :: s.script }
    | .readFrame => { s with st := .readReq, script := Inputs.ready :: s.script }
    | _ => { s with st := .bindReq, script := Inputs.ready :: s.script }
  | .busrsp w =>
    match i with
    | .rspData _ _ => { s with st := .readRsp, script := Inputs.ofRspWord w :: s.script }
    | _ => { s with st := .bindRsp, script := Inputs.ofRspWord w :: s.script }

end Sys2Proof.Machine
end

