-- ==== Sys2Proof/Machine/Step.lean ====
section
/-! DEFINITION. One step: the next cycle's inputs reach the ports, and its edge is taken (00_scope.md R5, R8;
40_sequencer.md R100). -/

namespace Sys2Proof.Machine

open Sys2Proof

/-- One rising edge of `clk`. -/
def step (s : State) : Host.Outcome State Fault Refusal := edge (loadInputs s)

/-- The state whose next step runs the word w of a table row of nbits bits. A word that decodes to nothing leaves s as
it is. -/
def State.withFetchWord (s : State) (nbits w : Nat) : State :=
  match decodeTableWord nbits w with
  | some i => presentWord i (encode i) s
  | none => s

end Sys2Proof.Machine
end

