-- ==== Sys2Proof/Machine/Listing.lean ====
section
/-! DEFINITION. The listing notation of 30_encoding.md R96 and R97: host program lines, pseudo-instructions, and the
scripted transport written beside a program. It adds nothing to the machine: every line is a word of R80 or R84. -/

namespace Sys2Proof.Machine

open Sys2Proof

/-- One line of a host program, one host cycle (30_encoding.md R96). -/
inductive HostLine where
  | nop
  | wr (off : Byte) (v : Reg32)
  | rd (off : Byte)
  | rdwr (off : Byte) (v : Reg32)
  deriving DecidableEq, Repr

/-- The HOSTOP word of a line (30_encoding.md R96). -/
def HostLine.word : HostLine → HostWord
  | .nop => hostWord false false 0 0
  | .wr off v => hostWord true false off v
  | .rd off => hostWord false true off 0
  | .rdwr off v => hostWord true true off v

/-- The D field of a CTRL write: crc<<3 | ie<<4 | n<<8, and the command bits (30_encoding.md R81, R97). -/
def ctrlData (start decode crc ie : Bool) (retry : BitVec 4) : Reg32 :=
  (0 : BitVec 20) ++ retry ++ (0 : BitVec 3) ++ BitVec.ofBool ie ++ BitVec.ofBool crc ++ (0 : BitVec 1) ++
    BitVec.ofBool decode ++ BitVec.ofBool start

/-- `start [crc] [ie] [retry=n]` (30_encoding.md R97). -/
def pseudoStart (crc ie : Bool) (retry : BitVec 4) : List HostLine := [.wr 0x00 (ctrlData true false crc ie retry)]

/-- `decode [crc] [ie]` (30_encoding.md R97). -/
def pseudoDecode (crc ie : Bool) : List HostLine := [.wr 0x00 (ctrlData false true crc ie 0)]

/-- `config [crc] [ie] [retry=n]` (30_encoding.md R97). -/
def pseudoConfig (crc ie : Bool) (retry : BitVec 4) : List HostLine := [.wr 0x00 (ctrlData false false crc ie retry)]

/-- `clear` (30_encoding.md R97). -/
def pseudoClear : List HostLine := [.wr 0x04 0x6]

/-- `load_frame b0,..,b6 [len=L]` (30_encoding.md R97). -/
def pseudoLoadFrame (f : Frame) (len : Byte) : List HostLine :=
  [.wr 0x18 f.lo, .wr 0x1C f.hi, .wr 0x20 ((0 : BitVec 24) ++ len)]

/-- `set_timeout T` (30_encoding.md R97). -/
def pseudoSetTimeout (t : Reg32) : List HostLine := [.wr 0x28 t]

/-- The line that `wait_done` repeats until bit 1 of the value read is 1 (30_encoding.md R97). -/
def pseudoWaitDone : HostLine := .rd 0x04

/-- One entry of a transport script: the answer to one request (30_encoding.md R96). -/
inductive TransportLine where
  | ok
  | err
  | data (bytes : List Byte) (count : Byte)
  | silent
  deriving DecidableEq, Repr

/-- The BUSRSP word of an entry; `silent` has none (30_encoding.md R84, R96). -/
def TransportLine.word : TransportLine → Option RspWord
  | .ok => some (rspWord false 0 0)
  | .err => some (rspWord true 0 0)
  | .data bytes count => some (rspWord false count (BitVec.ofNat 56 (numberOfBytes bytes)))
  | .silent => none

/-- What stands on the input ports when the host runs a line and the scripted transport answers the transaction in
progress with an entry: it accepts in the first REQ cycle and responds in the next (30_encoding.md R96). -/
def scriptedInputs (st : St) (h : HostLine) (t : TransportLine) : Inputs :=
  let x := { Inputs.ofHostWord h.word with bReqReady := st.isReq }
  match t.word with
  | some w =>
    { x with
      bRspValid := st.isRsp, bRspErr := w.getLsbD 64, bRspCount := w.extractLsb' 56 8, bRspRdata := w.extractLsb' 0 56 }
  | none => x

end Sys2Proof.Machine
end

