-- ==== Sys2Proof/Machine/Transport.lean ====
section
/-! DEFINITION. The transport's side of the bus port: the account of accepted requests that a transport keeps from the
ports alone, and the duty the account puts on it (40_sequencer.md R124, R128 to R130; 70_reset_and_hazards.md R246). The
account is no register of the block and no input is held to the duty (log entry 10): a response that breaks it, a stale
one after a cancel among them, is taken by the RSP state it arrives in (R130; `respond`, which looks at `st` alone). -/

namespace Sys2Proof.Machine

open Sys2Proof

/-- The accepted requests a transport still owes a response. -/
structure Account where
  /-- The request accepted most recently, unless it has been answered or abandoned. -/
  last  : Option Request
  /-- What was accepted before it and is neither answered nor abandoned. -/
  older : List Request
  deriving DecidableEq, Repr

/-- Nothing owed. -/
def Account.clear : Account := { last := none, older := [] }

/-- `b_cancel` in a cycle abandons the request accepted most recently before that cycle, and no other (R130). -/
def Account.afterCancel (cancel : Bool) (a : Account) : Account := if cancel then { a with last := none } else a

/-- A response answers one request owed, the latest first; where none is owed there is none to answer. -/
def Account.answer (a : Account) : Account :=
  match a.last, a.older with
  | some _, _ => { a with last := none }
  | none, _ :: rest => { a with older := rest }
  | none, [] => a

/-- A request is accepted. -/
def Account.accept (r : Request) (a : Account) : Account := { last := some r, older := a.last.toList ++ a.older }

/-- The request on the output ports, if one is presented (10_state.md R44, R45). -/
def Outputs.request (o : Outputs) : Option Request :=
  if o.bReqValid then some { op := o.bReqOp, addr := o.bReqAddr, len := o.bReqLen, wdata := o.bReqWdata } else none

/-- One cycle of the account, from what the block's outputs and inputs carry in it. The cancel reaches only what was
accepted before the cycle: a request presented and accepted beside it is a new one (R130; 70_reset_and_hazards.md R246).
A response answers an earlier acceptance, never the one of its own cycle (R129). -/
def Account.cycle (o : Outputs) (x : Inputs) (a : Account) : Account :=
  let rest := a.afterCancel o.bCancel
  let rest := if x.bRspValid then rest.answer else rest
  match o.request with
  | some r => if x.bReqReady then rest.accept r else rest
  | none => rest

/-- The duty of R128 to R130 in a cycle: a response only while, after the cycle's cancel, an accepted request is owed
one. -/
def Account.KeepsDuty (o : Outputs) (x : Inputs) (a : Account) : Prop :=
  x.bRspValid = true → a.afterCancel o.bCancel ≠ Account.clear

/-- The request that `st` awaits the response of (40_sequencer.md R118, R124): the one presented on the way there. -/
def St.awaited : St → Option Request
  | .bindRsp => St.bindReq.request
  | .writeRsp => St.writeReq.request
  | .readRsp => St.readReq.request
  | .idle | .bindReq | .writeReq | .settle | .readReq | .decode | .unused _ => none

/-- The account owes exactly what `st` awaits, once the cycle's cancel is heeded (R124: at most one request is
outstanding). -/
def Account.Agrees (s : State) (a : Account) : Prop :=
  a.afterCancel s.outputs.bCancel = { last := s.st.awaited, older := [] }

end Sys2Proof.Machine
end

