-- ==== Sys2Proof/Safety.lean ====
section
/-! DEFINITION. The terms claims are made in: the invariant of every state reachable from reset, the transport's duties,
the reading of a binary32 pattern as a number and of bytes as polynomials over GF(2), and runs of several edges. -/

namespace Sys2Proof.Safety

open Sys2Proof Sys2Proof.Machine

/-! ### The invariant -/

/-- Where each error may be raised (60_exceptions.md R201, column "raised in st"). -/
def mayRaise : ProtocolError → St → Bool
  | .transport, st => st.isRsp
  | .timeout, st => st.isReq || st.isRsp
  | .length, st | .busy, st | .checksum, st => st == .decode

/-- The error record is clear, or it is one row of the table of 60_exceptions.md R201 (30_encoding.md R88: "Each cause
occurs with only the one code shown"; R93: the reserved codes are never produced). -/
def ErrorRecordLegal (s : State) : Prop :=
  (s.errCode = 0 ∧ s.errCause = 0 ∧ s.errState = 0) ∨
    ∃ e st, mayRaise e st = true ∧ s.errCode = e.code ∧ s.errCause = e.cause ∧ s.errState = st.code

/-- What holds in every state after reset. Each part but the last is a whole-machine promise of the spec; the last,
`boundBeforeUse`, is about a field of the model's own choice (log entry 4). -/
structure Inv (s : State) : Prop where
  /-- 00_scope.md R6: the range of P_CLK_PER_MS. -/
  cfgLegal : s.cfg.Legal
  /-- 10_state.md R51: "The `st` encodings 0x9 to 0xF are never entered". -/
  stLegal : ∀ k, s.st ≠ .unused k
  /-- 10_state.md R23: `attempt` never exceeds MAX_RETRY while a command runs. -/
  attemptBounded : s.st ≠ .idle → s.attempt ≤ s.maxRetry
  /-- 40_sequencer.md R102: a DECODE command has no bus activity. -/
  decodeOnlyOffBus : s.mode = .decodeOnly → s.st = .idle ∨ s.st = .decode
  /-- 40_sequencer.md R110, R111: the settle counter never exceeds SETTLE_CYCLES − 1. -/
  settleBounded : s.st = .settle → s.settleCnt.toNat < s.cfg.settleCycles
  /-- 40_sequencer.md R115: the timeout counter runs from `timeout` down to 1, and is 0 exactly when no timeout is set. -/
  timerArmed : s.st.isReq = true ∨ s.st.isRsp = true → s.toCnt ≤ s.timeout ∧ (s.toCnt = 0 ↔ s.timeout = 0)
  /-- 60_exceptions.md R201, R202. -/
  errorLegal : ErrorRecordLegal s
  /-- 40_sequencer.md R101, R102, R120, R121: DONE is set only when a command has finished. -/
  doneIdle : s.done = true → s.st = .idle
  /-- 60_exceptions.md R204: DONE = 1 with ERR_CODE = NONE means the results were written. -/
  doneValid : s.done = true → s.errCode = 0 → s.valid = true
  /-- 20_memory.md R70: the four result registers form one Measurement (41_decoder.md R161). -/
  resultsMatch : s.valid = true → s.hum = hum32 s.rawHum ∧ s.temp = temp32 s.cfg.convEval s.rawTemp
  /-- 10_state.md R28, R29: before the first success the results hold their reset values. -/
  resultsReset : s.valid = false → s.rawHum = 0 ∧ s.rawTemp = 0 ∧ s.hum = 0 ∧ s.temp = 0
  /-- 40_sequencer.md R116, R117: `b_cancel` is 1 only in the cycle after a timeout, which left IDLE or the first cycle
  of the next attempt. -/
  cancelAfterTimeout : s.cancelQ = true →
    (s.st = .idle ∨ s.st = .bindReq ∧ s.toCnt = s.timeout) ∧ s.errCode = 1 ∧ s.errCause = 2
  /-- The model's (log entry 4, DESIGN CHOICE: when `bound` is set and what reset does to it): while a request other than
  BIND is in progress the transport holds the binding. What it is read from: 10_state.md R49, the binding is re-asserted in
  every attempt before anything else is asked of the sensor. -/
  boundBeforeUse : s.st = .writeReq ∨ s.st = .writeRsp ∨ s.st = .settle ∨ s.st = .readReq ∨ s.st = .readRsp →
    s.bound = some Config.sensorAddr

/-! ### The transport -/

/-- The transport's duties at an edge, for a transport whose account agrees with the block (Account.KeepsDuty and
Account.Agrees in Machine/Transport.lean; 40_sequencer.md R128 to R130): it presents a response only for the request
that `st` awaits. The block is modelled for every input, this duty kept or not (log entry 10); the predicate is for
statements that need it. -/
def TransportKeepsDuty (s : State) : Prop := s.inp.bRspValid = true → s.st.awaited.isSome = true

/-! ### binary32 -/

/-- A pattern that is neither an infinity nor a NaN (42_conversion.md R180). -/
def f32Finite (b : Reg32) : Bool := b.extractLsb' 23 8 != (0xFF : BitVec 8)

/-- A normal number: biased exponent 1 to 254 (42_conversion.md R180). -/
def f32Normal (b : Reg32) : Bool := f32Finite b && b.extractLsb' 23 8 != (0 : BitVec 8)

/-- The number a finite pattern stands for: (−1)^s × 1.f × 2^(e−127) for a normal one, (−1)^s × 0.f × 2^(−126) for e = 0
(42_conversion.md R180). -/
def f32Value (b : Reg32) : ℚ :=
  let e : Nat := (b.extractLsb' 23 8 : BitVec 8).toNat
  let f : Nat := (b.extractLsb' 0 23 : BitVec 23).toNat
  (if b.getLsbD 31 then -1 else 1) *
    (if e = 0 then (f : ℚ) * 2 ^ (-149 : ℤ) else ((2 ^ 23 + f : Nat) : ℚ) * 2 ^ ((e : ℤ) - 150))

/-- b is the binary32 pattern that 42_conversion.md R181 gives for x: no finite pattern's value is nearer to x; where
another value is equally near, b's last fraction bit is 0; and an exact zero is +0.0. -/
def IsRne32 (x : ℚ) (b : Reg32) : Prop :=
  f32Finite b = true ∧
    (∀ c : Reg32, f32Finite c = true → |f32Value b - x| ≤ |f32Value c - x|) ∧
    (∀ c : Reg32, f32Finite c = true → f32Value c ≠ f32Value b → |f32Value c - x| = |f32Value b - x| →
      b.getLsbD 0 = false) ∧
    (x = 0 → b = 0)

/-! ### Polynomials over GF(2) -/

/-- The polynomial over GF(2) whose coefficient of x^k is bit k of the byte. -/
noncomputable def bytePoly (b : Byte) : Polynomial (ZMod 2) :=
  ∑ k ∈ Finset.range 8, if b.getLsbD k then Polynomial.X ^ k else 0

/-- The polynomial of a message, its first byte the most significant (41_decoder.md R155: most significant bit first, the
bytes in order). -/
noncomputable def messagePoly : List Byte → Polynomial (ZMod 2)
  | [] => 0
  | b :: bs => bytePoly b * Polynomial.X ^ (8 * bs.length) + messagePoly bs

/-- The generator: x^8, which P_CRC_POLY leaves implicit, plus the polynomial of its byte (41_decoder.md R155). -/
noncomputable def generatorPoly (poly : Byte) : Polynomial (ZMod 2) := Polynomial.X ^ 8 + bytePoly poly

/-! ### Runs -/

/-- n steps; the machine never stops, so the run has a state (the state reached before a stop, if there were one). -/
def runFor : Nat → State → State
  | 0, s => s
  | n + 1, s =>
    match step s with
    | .next s' => runFor n s'
    | .fault _ | .refused _ => s

/-- The next n cycles are scripted and none of them resets the block. -/
def NoResetFor (n : Nat) (s : State) : Prop :=
  n ≤ s.script.length ∧ ∀ x ∈ s.script.take n, x.rst = false

end Sys2Proof.Safety
end

