-- ==== Sys2Proof/Certificates/Slice0/Obligations.lean ====
section
/-! DEFINITION. The statements made of the model. A statement that cites a rule says what that rule says; a statement
that rests on a choice of the model says so and names the log entry. -/

open Sys2Proof Sys2Proof.Machine Sys2Proof.Safety

/-! ### Reset -/

/-- At an edge with `rst` = 1, whatever else stands on the ports, every register of the block takes the value of
70_reset_and_hazards.md R230's table, and the parameters are not touched (R230). Derived: the clause that `bound`, the
transport's binding, is kept is the model's DESIGN CHOICE of log entry 4, read from R234 (reset does not reach the
transport), and no rule states it; `inp`, `script` and `draws` are the model's own fields (log entry 3). -/
def Obligations.ResetEdgeSetsEveryRegister : Prop :=
  ∀ (s : State) (x : Inputs) (rest : List Inputs), s.script = x :: rest → x.rst = true →
    step s = .next
      { cfg := s.cfg, bound := s.bound, inp := x, script := rest, draws := s.draws,
        st := .idle, mode := .cycle, attempt := 0, settleCnt := 0, toCnt := 0, cancelQ := false,
        frame := { b0 := 0, b1 := 0, b2 := 0, b3 := 0, b4 := 0, b5 := 0, b6 := 0 }, frameLen := 0,
        rawHum := 0, rawTemp := 0, hum := 0, temp := 0,
        done := false, ovr := false, valid := false, errCode := 0, errCause := 0, errState := 0,
        crcEn := false, ie := false, maxRetry := 0, timeout := 0, hRdata := 0, hRvalid := false }

/-- 70_reset_and_hazards.md R231: the outputs in the cycle after a reset edge, and after every further edge while `rst`
is held at 1. -/
def Obligations.OutputsAreQuietAfterReset : Prop :=
  ∀ (n : Nat) (s : State), n < s.script.length → (∀ x ∈ s.script.take (n + 1), x.rst = true) →
    (runFor (n + 1) s).outputs =
      { hRdata := 0, hRvalid := false, irq := false, bReqValid := false, bReqOp := 0, bReqAddr := 0, bReqLen := 0,
        bReqWdata := 0, bCancel := false }

/-- 10_state.md R31, column "reset value", at every parameter value; the CRC register is `crc8` of six zero bytes, which
is 0x6A under the default parameters. -/
def Obligations.HostRegistersReadResetValues : Prop :=
  (∀ (p : Params) (a : Byte),
    (a = 0x00 ∨ a = 0x04 ∨ a = 0x08 ∨ a = 0x0C ∨ a = 0x10 ∨ a = 0x14 ∨ a = 0x18 ∨ a = 0x1C ∨ a = 0x20 ∨ a = 0x28) →
      memRead (State.resetWith p) a = 0) ∧
  (∀ p : Params, memRead (State.resetWith p) 0x2C = 0x01500738) ∧
  memRead State.reset 0x24 = 0x0000006A

/-- The invariant of Safety.Inv holds in the state after reset, at every legal value of the parameters. Derived.
State.reset is the one of log entry 2 (P_CLK_PER_MS = 1, a DESIGN CHOICE). Inv.boundBeforeUse is the model's (log entry
4); after reset, in IDLE, it asks nothing. -/
def Obligations.ResetMeetsInvariant : Prop :=
  (∀ p : Params, p.Legal → Inv (State.resetWith p)) ∧ Inv State.reset

/-! ### The step -/

/-- Every step from a state that meets the invariant keeps it, whatever the host, the transport and the reset pin drive,
scripted or not. Derived. One clause of the invariant, Inv.boundBeforeUse, is the model's and no promise of the spec: it
is about the field `bound`, whose value follows the DESIGN CHOICE of log entry 4. -/
def Obligations.StepKeepsInvariant : Prop :=
  ∀ s t : State, Inv s → step s = .next t → Inv t

/-- The machine never stops: in every state, reachable or not, a step answers a next state. Derived from 30_encoding.md
R91 (no illegal encoding), 20_memory.md R65 (nothing traps) and 60_exceptions.md R200 (no traps). -/
def Obligations.EveryStepAnswersNext : Prop :=
  ∀ s : State, ∃ t, step s = .next t

/-- A step runs the decoded operations. The next cycle's inputs come from the script, or, where it lists none, from a
free draw; with `rst` = 0 the step runs the operation its HOSTOP word decodes to and then, on the result, the bus
operation of the cycle or the rule of the pre-edge state where there is none. `cancel_q` is 0 before both. Derived: the
order host, then sequencer is the model's (log entry 1), and Obligations.HostAndSequencerDoNotInterfere says that it is
no order at all. -/
def Obligations.StepRunsDecodedOperations : Prop :=
  ∀ (s p : State) (i : Instr),
    (∀ x rest, s.script = x :: rest → p = { s with inp := x, script := rest }) →
    (s.script = [] → p = { s with inp := Config.freeInputs s.draws, draws := s.draws + 1 }) →
    p.inp.rst = false →
    decode false (.hostop (hostWord p.inp.hWr p.inp.hRd p.inp.hAddr p.inp.hWdata)) = .ok i →
    ∀ h, exec i { p with cancelQ := false } = .next h →
      step s =
        match busInstr p with
        | some j => exec j h
        | none => .next (quietEdge p.st h)

/-- Which bus operation an edge carries: in a REQ state the request the block presents, in a RSP state the response that
`b_rsp_valid` = 1 shows, told by E and by the state, and none elsewhere. Derived from 10_state.md R45, 30_encoding.md
R84 and 40_sequencer.md R118. Nothing but `st` and the ports decides it, so a stale response in a RSP state is taken as that
state's response (R130). -/
def Obligations.BusOperationOfEachState : Prop :=
  ∀ s : State,
    (s.st = .bindReq → busInstr s = some .bind) ∧
    (s.st = .writeReq → busInstr s = some .writeTrigger) ∧
    (s.st = .readReq → busInstr s = some .readFrame) ∧
    (s.st.isRsp = true → s.inp.bRspValid = false → busInstr s = none) ∧
    (s.st.isRsp = true → s.inp.bRspValid = true → s.inp.bRspErr = true →
      busInstr s = some (.rspErr s.inp.bRspCount s.inp.bRspRdata)) ∧
    (s.st = .bindRsp ∨ s.st = .writeRsp → s.inp.bRspValid = true → s.inp.bRspErr = false →
      busInstr s = some (.rspOk s.inp.bRspCount s.inp.bRspRdata)) ∧
    (s.st = .readRsp → s.inp.bRspValid = true → s.inp.bRspErr = false →
      busInstr s = some (.rspData s.inp.bRspCount s.inp.bRspRdata)) ∧
    (s.st.isReq = false → s.st.isRsp = false → busInstr s = none)

/-- 40_sequencer.md R100 with 60_exceptions.md R206: outside IDLE the host operation and the state rule of one edge, each
run on the pre-edge values alone, write disjoint registers except `done`, and there a set by the finishing rule wins;
from IDLE only the host operation acts. Derived. -/
def Obligations.HostAndSequencerDoNotInterfere : Prop :=
  ∀ (s p : State) (x : Inputs) (rest : List Inputs), s.script = x :: rest → x.rst = false →
    p = { s with inp := x, script := rest, cancelQ := false } →
    (s.st = .idle → step s = exec (hostInstr p) p) ∧
    (s.st ≠ .idle →
      ∃ h q, exec (hostInstr p) p = .next h ∧ sequencerEdge p p = .next q ∧
        step s = .next
          { q with
            ie := h.ie, ovr := h.ovr, hRdata := h.hRdata, hRvalid := h.hRvalid,
            done := if q.st = .idle then true else h.done })

/-- 40_sequencer.md R118, R105, R131 and 30_encoding.md R84: `b_req_ready` matters only in a REQ state, a response only in
a RSP state, and of a response only E, and for a READ response with E = 0 also N and its first min(N, 7) bytes. Two
edges that differ only in what does not matter end alike. Derived. -/
def Obligations.UnreadBusInputsHaveNoEffect : Prop :=
  ∀ (s : State) (x y : Inputs),
    x.rst = y.rst → x.hWr = y.hWr → x.hRd = y.hRd → x.hAddr = y.hAddr → x.hWdata = y.hWdata →
    (s.st.isReq = true → x.bReqReady = y.bReqReady) →
    (s.st.isRsp = true → x.bRspValid = y.bRspValid ∧ (x.bRspValid = true → x.bRspErr = y.bRspErr)) →
    (s.st = .readRsp → x.bRspValid = true → x.bRspErr = false → x.bRspCount = y.bRspCount ∧
      ∀ k, k < 7 → k < x.bRspCount.toNat → rdataByte x.bRspRdata k = rdataByte y.bRspRdata k) →
    ∃ t : State, edge { s with inp := x } = .next { t with inp := x } ∧ edge { s with inp := y } = .next { t with inp := y }

/-! ### Encodings -/

/-- Decoding the word of any well-formed instruction gives it back, every operand at every value; an E = 0 response is
read in the sequencer state that its form belongs to. -/
def Obligations.DecodeOfEncodeIsTheInstruction : Prop :=
  ∀ i : Instr, i.WellFormed → decode i.reading (encode i) = .ok i

/-- 30_encoding.md R89, R84: the HOSTOP and BUSRSP decoders are total and no bit of a word is lost: every HOSTOP word is
the word of exactly the well-formed instruction it decodes to, and every BUSRSP word, in either reading, that of the
response form it is read as. Derived. -/
def Obligations.EveryPortWordIsOneInstruction : Prop :=
  (∀ w : HostWord, (decodeHost w).WellFormed ∧ encode (decodeHost w) = .hostop w) ∧
  (∀ (reading : Bool) (w : RspWord), encode (decodeRsp reading w) = .busrsp w)

/-- 30_encoding.md R82, R92: exactly the three words of R82 are request words; kind 0b11 is refused by its own name. -/
def Obligations.OnlyThreeRequestWordsDecode : Prop :=
  (∀ (w : ReqWord) (i : Instr), decodeReq w = .ok i ↔
    (w = 0x01C0000000 ∧ i = .bind) ∨ (w = 0x09C30033AC ∧ i = .writeTrigger) ∨ (w = 0x11C7000000 ∧ i = .readFrame)) ∧
  (∀ w : ReqWord, w.extractLsb' 35 2 = (0b11 : BitVec 2) → decodeReq w = .error .reservedBusOp)

/-- Words written out from the spec's encodings (30_encoding.md R80 to R84; 95_test_vectors.md 2.6, P1 and P6) decode to
the operations they stand for. -/
def Obligations.WrittenOutWordsDecode : Prop :=
  decodeHost 0x20000000318 = .ctrlCfg false 0 0x318 ∧
  decodeHost 0x200FFFFFFFF = .start false 0 0xFFFFFFFF ∧
  decodeHost 0x2000000000A = .decode false 0 0x0A ∧
  decodeHost 0x2189A991900 = .frameLoWr false 0 0x9A991900 ∧
  decodeHost 0x12F00000000 = .regRd 0x2F 0 ∧
  decodeHost 0x30000000010 = .ctrlCfg true 0 0x10 ∧
  decodeHost 0x24012345678 = .regWrIgnored false 0x40 0x12345678 ∧
  decodeReq 0x09C30033AC = .ok .writeTrigger ∧
  decodeRsp true 0x00700EFA7A69A4D08 = .rspData 7 0x00EFA7A69A4D08 ∧
  decodeRsp false 0x10000000000000000 = .rspErr 0 0

/-- 10_state.md R45, R47: the request outputs are a function of `st` alone, with the table's values, and `irq` is DONE
AND IE. -/
def Obligations.OutputsFollowTheRegisters : Prop :=
  ∀ s : State,
    s.outputs.irq = (s.done && s.ie) ∧
    (s.outputs.bReqValid, s.outputs.bReqOp, s.outputs.bReqAddr, s.outputs.bReqLen, s.outputs.bReqWdata) =
      match s.st with
      | .bindReq => (true, 0b00, 0x38, 0, 0x000000)
      | .writeReq => (true, 0b01, 0x38, 3, 0x0033AC)
      | .readReq => (true, 0b10, 0x38, 7, 0x000000)
      | _ => (false, 0b00, 0x00, 0, 0x000000)

/-! ### Host operations -/

/-- 40_sequencer.md R101 with R104: START from IDLE begins an attempt under the configuration of the same write, and is
ignored with OVR otherwise. It completes in every state, changes nothing else, and the read of the same word sees the
pre-edge register. -/
def Obligations.StartBeginsAnAttemptOrSetsOvr : Prop :=
  ∀ (s : State) (rd : Bool) (lo : BitVec 2) (d : Reg32),
    (s.st = .idle → exec (.start rd lo d) s = .next
      { s with
        hRdata := if rd then memRead s (offsetOf 0x00 lo) else s.hRdata, hRvalid := rd,
        ie := d.getLsbD 4, crcEn := d.getLsbD 3, maxRetry := d.extractLsb' 8 4,
        mode := .cycle, attempt := 0, done := false, errCode := 0, errCause := 0, errState := 0,
        st := .bindReq, toCnt := s.timeout }) ∧
    (s.st ≠ .idle → exec (.start rd lo d) s = .next
      { s with
        hRdata := if rd then memRead s (offsetOf 0x00 lo) else s.hRdata, hRvalid := rd,
        ie := d.getLsbD 4, ovr := true })

/-- 40_sequencer.md R102: DECODE from IDLE enters the DECODE state, with no bus activity, and is ignored with OVR
otherwise. It completes in every state and changes nothing else. -/
def Obligations.DecodeEntersDecodeOrSetsOvr : Prop :=
  ∀ (s : State) (rd : Bool) (lo : BitVec 2) (d : Reg32),
    (s.st = .idle → exec (.decode rd lo d) s = .next
      { s with
        hRdata := if rd then memRead s (offsetOf 0x00 lo) else s.hRdata, hRvalid := rd,
        ie := d.getLsbD 4, crcEn := d.getLsbD 3, maxRetry := d.extractLsb' 8 4,
        mode := .decodeOnly, attempt := 0, done := false, errCode := 0, errCause := 0, errState := 0,
        st := .decode }) ∧
    (s.st ≠ .idle → exec (.decode rd lo d) s = .next
      { s with
        hRdata := if rd then memRead s (offsetOf 0x00 lo) else s.hRdata, hRvalid := rd,
        ie := d.getLsbD 4, ovr := true })

/-- 43_host_ops.md R302: a CTRL write with neither command bit; IE always, CRC_EN and MAX_RETRY only in IDLE, and OVR is
not set. -/
def Obligations.CtrlCfgWritesConfiguration : Prop :=
  ∀ (s : State) (rd : Bool) (lo : BitVec 2) (d : Reg32),
    exec (.ctrlCfg rd lo d) s = .next
      { s with
        hRdata := if rd then memRead s (offsetOf 0x00 lo) else s.hRdata, hRvalid := rd,
        ie := d.getLsbD 4,
        crcEn := if s.st = .idle then d.getLsbD 3 else s.crcEn,
        maxRetry := if s.st = .idle then d.extractLsb' 8 4 else s.maxRetry }

/-- 43_host_ops.md R303: STATUS_W1C clears DONE and OVR where its data holds a 1, and nothing else. -/
def Obligations.StatusWriteClearsByOnes : Prop :=
  ∀ (s : State) (rd : Bool) (lo : BitVec 2) (d : Reg32),
    exec (.statusW1c rd lo d) s = .next
      { s with
        hRdata := if rd then memRead s (offsetOf 0x01 lo) else s.hRdata, hRvalid := rd,
        done := if d.getLsbD 1 then false else s.done,
        ovr := if d.getLsbD 2 then false else s.ovr }

/-- 43_host_ops.md R304, R305, R306, R307: the four registers writable only in IDLE. In IDLE each takes its bits of the
data, byte by byte, and nothing else changes. -/
def Obligations.FrameAndTimeoutWritesInIdle : Prop :=
  ∀ (s : State) (rd : Bool) (lo : BitVec 2) (d : Reg32), s.st = .idle →
    exec (.frameLoWr rd lo d) s = .next
      { s with
        hRdata := if rd then memRead s (offsetOf 0x06 lo) else s.hRdata, hRvalid := rd,
        frame := { s.frame with
          b0 := d.extractLsb' 0 8, b1 := d.extractLsb' 8 8, b2 := d.extractLsb' 16 8, b3 := d.extractLsb' 24 8 } } ∧
    exec (.frameHiWr rd lo d) s = .next
      { s with
        hRdata := if rd then memRead s (offsetOf 0x07 lo) else s.hRdata, hRvalid := rd,
        frame := { s.frame with b4 := d.extractLsb' 0 8, b5 := d.extractLsb' 8 8, b6 := d.extractLsb' 16 8 } } ∧
    exec (.frameLenWr rd lo d) s = .next
      { s with
        hRdata := if rd then memRead s (offsetOf 0x08 lo) else s.hRdata, hRvalid := rd,
        frameLen := d.extractLsb' 0 8 } ∧
    exec (.timeoutWr rd lo d) s = .next
      { s with
        hRdata := if rd then memRead s (offsetOf 0x0A lo) else s.hRdata, hRvalid := rd,
        timeout := d }

/-- 70_reset_and_hazards.md R243: the same four writes outside IDLE have no effect and set no flag; only the read of the
same word, if any, is performed. -/
def Obligations.FrameAndTimeoutWritesIgnoredWhileBusy : Prop :=
  ∀ (s : State) (rd : Bool) (lo : BitVec 2) (d : Reg32), s.st ≠ .idle →
    exec (.frameLoWr rd lo d) s = .next
      { s with hRdata := if rd then memRead s (offsetOf 0x06 lo) else s.hRdata, hRvalid := rd } ∧
    exec (.frameHiWr rd lo d) s = .next
      { s with hRdata := if rd then memRead s (offsetOf 0x07 lo) else s.hRdata, hRvalid := rd } ∧
    exec (.frameLenWr rd lo d) s = .next
      { s with hRdata := if rd then memRead s (offsetOf 0x08 lo) else s.hRdata, hRvalid := rd } ∧
    exec (.timeoutWr rd lo d) s = .next
      { s with hRdata := if rd then memRead s (offsetOf 0x0A lo) else s.hRdata, hRvalid := rd }

/-- 43_host_ops.md R300, R301, R308: NOP clears `h_rvalid`; REG_RD registers the value of the addressed register; a write
to a read-only or reserved offset changes nothing (and its word's read, if any, is performed). -/
def Obligations.NopReadAndIgnoredWrite : Prop :=
  ∀ (s : State) (rd : Bool) (a : Byte) (d : Reg32),
    exec (.nop a d) s = .next { s with hRvalid := false } ∧
    exec (.regRd a d) s = .next { s with hRdata := memRead s a, hRvalid := true } ∧
    exec (.regWrIgnored rd a d) s = .next
      { s with hRdata := if rd then memRead s a else s.hRdata, hRvalid := rd }

/-- 10_state.md R46 with 20_memory.md R64, over every host word: with R = 1 the word's operation leaves the pre-edge value
of the addressed register in `h_rdata`, whatever the same word writes, and sets `h_rvalid`; with R = 0 it clears
`h_rvalid` and keeps `h_rdata`. -/
def Obligations.HostReadReturnsPreEdgeValue : Prop :=
  ∀ (s : State) (wr rd : Bool) (a : Byte) (d : Reg32),
    ∃ t, exec (decodeHost (hostWord wr rd a d)) s = .next t ∧ t.hRvalid = rd ∧
      t.hRdata = if rd then memRead s a else s.hRdata

/-- Every host operation outside IDLE leaves everything but IE, OVR, DONE and the read port as it was, so the command in
progress runs under the configuration that held at its START. Derived from 70_reset_and_hazards.md R243 and
60_exceptions.md R206. -/
def Obligations.HostOperationsWhileBusyTouchOnlyFlags : Prop :=
  ∀ (s : State) (w : HostWord), s.st ≠ .idle →
    ∃ ie ovr done rdata rvalid, exec (decodeHost w) s = .next
      { s with ie := ie, ovr := ovr, done := done, hRdata := rdata, hRvalid := rvalid }

/-- 10_state.md R37: STATUS, field by field, at every state; the reserved bits read 0. -/
def Obligations.StatusReadsItsFields : Prop :=
  ∀ s : State, ∀ v : Reg32, v = memRead s 0x04 →
    v.getLsbD 0 = decide (s.st ≠ .idle) ∧ v.getLsbD 1 = s.done ∧ v.getLsbD 2 = s.ovr ∧ v.getLsbD 3 = s.valid ∧
    v.extractLsb' 4 3 = s.errCode ∧ v.getLsbD 7 = false ∧ v.extractLsb' 8 3 = s.errCause ∧ v.getLsbD 11 = false ∧
    v.extractLsb' 12 4 = s.errState ∧ v.extractLsb' 16 4 = s.attempt ∧ v.extractLsb' 20 4 = (0 : BitVec 4) ∧
    v.extractLsb' 24 4 = s.st.code ∧ v.extractLsb' 28 4 = (0 : BitVec 4)

/-- The other host registers as read, at every state: CTRL (10_state.md R32), TEMP, HUM, RAW_HUM, RAW_TEMP (R33 to R36),
FRAME_LO, FRAME_HI, FRAME_LEN (R38 to R40), CRC (R41), TIMEOUT (R43), INFO (R42). Derived: the write effects those rules
also give are other statements'. -/
def Obligations.HostRegistersReadTheirFields : Prop :=
  ∀ s : State,
    (∀ k, k < 32 → (memRead s 0x00).getLsbD k =
      if k = 3 then s.crcEn else if k = 4 then s.ie else if 8 ≤ k ∧ k < 12 then s.maxRetry.getLsbD (k - 8) else false) ∧
    memRead s 0x08 = s.temp ∧ memRead s 0x0C = s.hum ∧
    (memRead s 0x10).toNat = s.rawHum.toNat ∧ (memRead s 0x14).toNat = s.rawTemp.toNat ∧
    (memRead s 0x18).toNat =
      s.frame.b0.toNat + 2 ^ 8 * s.frame.b1.toNat + 2 ^ 16 * s.frame.b2.toNat + 2 ^ 24 * s.frame.b3.toNat ∧
    (memRead s 0x1C).toNat = s.frame.b4.toNat + 2 ^ 8 * s.frame.b5.toNat + 2 ^ 16 * s.frame.b6.toNat ∧
    (memRead s 0x20).toNat = s.frameLen.toNat ∧
    (memRead s 0x24).toNat = (frameCrc s.cfg s.frame).toNat + 2 ^ 8 * s.frame.b6.toNat +
      (if frameCrc s.cfg s.frame = s.frame.b6 then 2 ^ 16 else 0) ∧
    memRead s 0x28 = s.timeout ∧ memRead s 0x2C = 0x01500738

/-- 20_memory.md R61 and R65 as far as they concern reads: A[1:0] is ignored, and every offset from 0x30 up reads 0.
Derived. -/
def Obligations.ReadsAliasToWordsAndReservedReadZero : Prop :=
  ∀ (s : State) (a : Byte), memRead s a = memRead s (a &&& 0xFC) ∧ (0x30 ≤ a → memRead s a = 0)

/-! ### The bus side -/

/-- 40_sequencer.md R106, R108, R112: a presented request when no timeout is due. It counts `to_cnt` down if that is above
1, moves to its RSP state if the transport is ready, and changes nothing else. -/
def Obligations.RequestWaitsUntilAccepted : Prop :=
  ∀ (s : State) (i : Instr) (req rsp : St),
    (i, req, rsp) = (.bind, .bindReq, .bindRsp) ∨ (i, req, rsp) = (.writeTrigger, .writeReq, .writeRsp) ∨
      (i, req, rsp) = (.readFrame, .readReq, .readRsp) →
    s.st = req → s.toCnt ≠ 1 →
    exec i s = .next
      { s with
        st := if s.inp.bReqReady then rsp else req,
        toCnt := if 1 < s.toCnt then s.toCnt - 1 else s.toCnt }

/-- 40_sequencer.md R116 in a REQ state, with the retry decision of R120: at `to_cnt` = 1 BUS_FAULT/TIMEOUT is raised with
ERR_STATE the REQ state; the request is cancelled exactly when the transport was ready at that edge. Derived (R116 also
speaks of the RSP states: Obligations.SilentResponseStateCountsOrTimesOut). -/
def Obligations.RequestTimeoutRaisesBusFault : Prop :=
  ∀ (s : State) (i : Instr),
    (i = .bind ∧ s.st = .bindReq) ∨ (i = .writeTrigger ∧ s.st = .writeReq) ∨ (i = .readFrame ∧ s.st = .readReq) →
    s.toCnt = 1 →
    exec i s = .next
      (if s.mode = .cycle ∧ s.attempt < s.maxRetry then
        { s with
          cancelQ := s.cancelQ || s.inp.bReqReady, errCode := 1, errCause := 2, errState := s.st.code,
          attempt := s.attempt + 1, st := .bindReq, toCnt := s.timeout }
      else
        { s with
          cancelQ := s.cancelQ || s.inp.bReqReady, errCode := 1, errCause := 2, errState := s.st.code,
          st := .idle, done := true })

/-- RSP_OK in the two states it belongs to (40_sequencer.md R107, R110): after BIND the trigger WRITE is presented with a
fresh timeout count, after WRITE the settle counter is loaded with SETTLE_CYCLES − 1. N and RDATA are not used. That
the transport then holds the binding is the model's reading of 10_state.md R49 (log entry 4). Derived. -/
def Obligations.SuccessResponsesAdvance : Prop :=
  ∀ (s : State) (n : Byte) (data : BitVec 56),
    (s.st = .bindRsp → exec (.rspOk n data) s = .next
      { s with st := .writeReq, toCnt := s.timeout, bound := some 0x38 }) ∧
    (s.st = .writeRsp → exec (.rspOk n data) s = .next
      { s with st := .settle, settleCnt := BitVec.ofNat 32 (80 * s.cfg.clkPerMs - 1) })

/-- RSP_ERR in any RSP state (40_sequencer.md R107, R109, R113): BUS_FAULT/TRANSPORT with ERR_STATE the RSP state, then
the retry decision (R120); the frame buffer and every result keep their values. Derived. -/
def Obligations.ErrorResponseRaisesBusFault : Prop :=
  ∀ (s : State) (n : Byte) (data : BitVec 56), s.st.isRsp = true →
    exec (.rspErr n data) s = .next
      (if s.mode = .cycle ∧ s.attempt < s.maxRetry then
        { s with
          errCode := 1, errCause := 1, errState := s.st.code,
          attempt := s.attempt + 1, st := .bindReq, toCnt := s.timeout }
      else
        { s with errCode := 1, errCause := 1, errState := s.st.code, st := .idle, done := true })

/-- RSP_DATA in READ_RSP (40_sequencer.md R113): the first min(N, 7) bytes are captured, the rest of the buffer is zero,
`frame_len` is N, and the next state is DECODE. Nothing else changes. Derived (R113 also states the error response and
the timeout, which are other statements'). -/
def Obligations.DataResponseCapturesTheFrame : Prop :=
  ∀ (s : State) (n : Byte) (data : BitVec 56), s.st = .readRsp →
    ∃ f : Frame, exec (.rspData n data) s = .next { s with frame := f, frameLen := n, st := .decode } ∧
      ∀ k (hk : k < 7), f.bytes[k]'(by simpa [Frame.bytes] using hk) =
        if k < min n.toNat 7 then data.extractLsb' (8 * k) 8 else 0

/-- A response in a state that is no RSP state has no effect and is not remembered (40_sequencer.md R118), and a request
operation outside the state that presents it has none either; in READ_RSP the E = 0 word is captured whichever of its
two names it is given. Derived: off-state operations reach no step, and that they do nothing is the model's choice (log
entry 7). -/
def Obligations.BusOperationsOffTheirStatesDoNothing : Prop :=
  ∀ (s : State) (n : Byte) (data : BitVec 56),
    (s.st.isRsp = false →
      exec (.rspOk n data) s = .next s ∧ exec (.rspErr n data) s = .next s ∧ exec (.rspData n data) s = .next s) ∧
    (s.st ≠ .bindReq → exec .bind s = .next s) ∧
    (s.st ≠ .writeReq → exec .writeTrigger s = .next s) ∧
    (s.st ≠ .readReq → exec .readFrame s = .next s) ∧
    exec (.rspOk n data) s = exec (.rspData n data) s

/-- 40_sequencer.md R115, items 2 and 3, with R116 in a RSP state: with no response the count goes down while above 1; at
1 BUS_FAULT/TIMEOUT is raised and the accepted request cancelled. The host is idle in the cycle. Derived. -/
def Obligations.SilentResponseStateCountsOrTimesOut : Prop :=
  ∀ (s : State) (x : Inputs) (rest : List Inputs), s.script = x :: rest →
    x.rst = false → x.hWr = false → x.hRd = false → x.bRspValid = false → s.st.isRsp = true →
    step s = .next
      (if s.toCnt = 1 then
        if s.mode = .cycle ∧ s.attempt < s.maxRetry then
          { s with
            inp := x, script := rest, hRvalid := false,
            cancelQ := true, errCode := 1, errCause := 2, errState := s.st.code,
            attempt := s.attempt + 1, st := .bindReq, toCnt := s.timeout }
        else
          { s with
            inp := x, script := rest, hRvalid := false,
            cancelQ := true, errCode := 1, errCause := 2, errState := s.st.code, st := .idle, done := true }
      else
        { s with
          inp := x, script := rest, hRvalid := false,
          cancelQ := false, toCnt := if 1 < s.toCnt then s.toCnt - 1 else s.toCnt })

/-- 60_exceptions.md R205, item 2: in a RSP state a response is taken even at the edge where `to_cnt` = 1, and no timeout
is recorded: with E = 0 the error record is untouched and nothing is cancelled. The host is idle in the cycle.
Derived. -/
def Obligations.ResponseBeatsTimeout : Prop :=
  ∀ (s : State) (x : Inputs) (rest : List Inputs), s.script = x :: rest →
    x.rst = false → x.hWr = false → x.hRd = false → x.bRspValid = true → x.bRspErr = false → s.st.isRsp = true →
    ∃ t, step s = .next t ∧ t.errCode = s.errCode ∧ t.errCause = s.errCause ∧ t.errState = s.errState ∧
      t.cancelQ = false ∧ t.attempt = s.attempt ∧ t.done = s.done ∧
      t.st = (if s.st = .bindRsp then .writeReq else if s.st = .writeRsp then .settle else .decode)

/-- 40_sequencer.md R111, one edge of SETTLE with an idle host. Derived. -/
def Obligations.SettleCountsDown : Prop :=
  ∀ (s : State) (x : Inputs) (rest : List Inputs), s.script = x :: rest →
    x.rst = false → x.hWr = false → x.hRd = false → s.st = .settle →
    step s = .next
      (if s.settleCnt = 0 then
        { s with inp := x, script := rest, hRvalid := false, cancelQ := false, st := .readReq, toCnt := s.timeout }
      else
        { s with inp := x, script := rest, hRvalid := false, cancelQ := false, settleCnt := s.settleCnt - 1 })

/-- 40_sequencer.md R111: "The block is in SETTLE for exactly SETTLE_CYCLES consecutive cycles". From the edge that loads
`settle_cnt` with SETTLE_CYCLES − 1, whatever the host and the transport do but reset, the state is SETTLE for
SETTLE_CYCLES cycles and READ_REQ after them, and no request is presented before. -/
def Obligations.SettleLastsExactlySettleCycles : Prop :=
  ∀ s : State, s.cfg.Legal → s.st = .settle → s.settleCnt = BitVec.ofNat 32 (s.cfg.settleCycles - 1) →
    NoResetFor s.cfg.settleCycles s →
    (∀ n, n < s.cfg.settleCycles → (runFor n s).st = .settle ∧ (runFor n s).outputs.bReqValid = false) ∧
    (runFor s.cfg.settleCycles s).st = .readReq

/-- 40_sequencer.md R114 with R121: a DECODE edge whose decoder answers Ok. The four results, VALID and DONE are written
at this one edge, the error record cleared. The host is idle in the cycle. -/
def Obligations.DecodeSuccessCompletes : Prop :=
  ∀ (s : State) (x : Inputs) (rest : List Inputs) (rawH rawT : BitVec 20) (hb tb : Reg32), s.script = x :: rest →
    x.rst = false → x.hWr = false → x.hRd = false → s.st = .decode →
    decodeFrame s.cfg s.frame s.frameLen s.crcEn = .ok rawH rawT hb tb →
    step s = .next
      { s with
        inp := x, script := rest, hRvalid := false, cancelQ := false,
        rawHum := rawH, rawTemp := rawT, hum := hb, temp := tb, valid := true,
        errCode := 0, errCause := 0, errState := 0, st := .idle, done := true }

/-- 40_sequencer.md R114 with R120 and 60_exceptions.md R202: a DECODE edge whose decoder answers Err. The error record is
written with ERR_STATE = 0x8, then the command is retried or finished; no result changes. The host is idle in the
cycle. -/
def Obligations.DecodeErrorRecordsAndRetries : Prop :=
  ∀ (s : State) (x : Inputs) (rest : List Inputs) (e : ProtocolError), s.script = x :: rest →
    x.rst = false → x.hWr = false → x.hRd = false → s.st = .decode →
    decodeFrame s.cfg s.frame s.frameLen s.crcEn = .err e →
    step s = .next
      (if s.mode = .cycle ∧ s.attempt < s.maxRetry then
        { s with
          inp := x, script := rest, hRvalid := false, cancelQ := false,
          errCode := e.code, errCause := e.cause, errState := 0x8,
          attempt := s.attempt + 1, st := .bindReq, toCnt := s.timeout }
      else
        { s with
          inp := x, script := rest, hRvalid := false, cancelQ := false,
          errCode := e.code, errCause := e.cause, errState := 0x8, st := .idle, done := true })

/-- 60_exceptions.md R206: where the sequencer finishes at the edge of a STATUS write, DONE is 1 after it, whatever the
write clears; OVR is cleared by the write's bit 2. -/
def Obligations.DoneSetBeatsDoneClear : Prop :=
  ∀ (s t : State) (x : Inputs) (rest : List Inputs), s.script = x :: rest →
    x.rst = false → x.hWr = true → wordIndex x.hAddr = 1 → s.st ≠ .idle → step s = .next t →
    (t.st = .idle → t.done = true) ∧ (t.st ≠ .idle → t.done = (s.done && !x.hWdata.getLsbD 1)) ∧
      t.ovr = (s.ovr && !x.hWdata.getLsbD 2)

/-! ### The whole machine -/

/-- 40_sequencer.md R126: the next `st` at an edge with `rst` = 0, row by row, from every state. `err` is the state that
`err→` stands for, by R120: BIND_REQ for a CYCLE command with an attempt left, IDLE otherwise. -/
def Obligations.TransitionsFollowTheTable : Prop :=
  ∀ (s t : State) (x : Inputs) (rest : List Inputs) (err : St),
    s.script = x :: rest → x.rst = false → step s = .next t →
    err = (if s.mode = .cycle ∧ s.attempt < s.maxRetry then .bindReq else .idle) →
    match s.st with
    | .idle =>
      t.st = if x.hWr = true ∧ wordIndex x.hAddr = 0 ∧ x.hWdata.getLsbD 0 = true then .bindReq
        else if x.hWr = true ∧ wordIndex x.hAddr = 0 ∧ x.hWdata.getLsbD 1 = true then .decode
        else .idle
    | .bindReq => t.st = if s.toCnt = 1 then err else if x.bReqReady then .bindRsp else .bindReq
    | .bindRsp =>
      t.st = if x.bRspValid then (if x.bRspErr then err else .writeReq) else if s.toCnt = 1 then err else .bindRsp
    | .writeReq => t.st = if s.toCnt = 1 then err else if x.bReqReady then .writeRsp else .writeReq
    | .writeRsp =>
      t.st = if x.bRspValid then (if x.bRspErr then err else .settle) else if s.toCnt = 1 then err else .writeRsp
    | .settle => t.st = if s.settleCnt = 0 then .readReq else .settle
    | .readReq => t.st = if s.toCnt = 1 then err else if x.bReqReady then .readRsp else .readReq
    | .readRsp =>
      t.st = if x.bRspValid then (if x.bRspErr then err else .decode) else if s.toCnt = 1 then err else .readRsp
    | .decode =>
      match decodeFrame s.cfg s.frame s.frameLen s.crcEn with
      | .ok _ _ _ _ => t.st = .idle
      | .err _ => t.st = err
    | .unused k => t.st = .unused k

/-- 10_state.md R28 with 60_exceptions.md R204: the result registers and VALID change at no edge but a reset edge and a
DECODE edge whose frame passes every check, and then to that frame's values. -/
def Obligations.ResultsChangeOnlyOnSuccess : Prop :=
  ∀ (s t : State) (x : Inputs) (rest : List Inputs), s.script = x :: rest → x.rst = false → step s = .next t →
    (t.rawHum = s.rawHum ∧ t.rawTemp = s.rawTemp ∧ t.hum = s.hum ∧ t.temp = s.temp ∧ t.valid = s.valid) ∨
    (s.st = .decode ∧ t.valid = true ∧ t.errCode = 0 ∧ t.st = .idle ∧ t.done = true ∧
      decodeFrame s.cfg s.frame s.frameLen s.crcEn = .ok t.rawHum t.rawTemp t.hum t.temp)

/-- 10_state.md R27 with 60_exceptions.md R203: the frame buffer and its length change at no edge but a reset edge, a READ
response with E = 0 in READ_RSP, and a host frame write in IDLE. -/
def Obligations.FrameChangesOnlyByReadOrHost : Prop :=
  ∀ (s t : State) (x : Inputs) (rest : List Inputs), s.script = x :: rest → x.rst = false → step s = .next t →
    (t.frame ≠ s.frame ∨ t.frameLen ≠ s.frameLen) →
    (s.st = .readRsp ∧ x.bRspValid = true ∧ x.bRspErr = false ∧ t.st = .decode ∧ t.frameLen = x.bRspCount) ∨
    (s.st = .idle ∧ x.hWr = true ∧ (wordIndex x.hAddr = 6 ∨ wordIndex x.hAddr = 7 ∨ wordIndex x.hAddr = 8))

/-- A command runs under one configuration: CRC_EN, MAX_RETRY and TIMEOUT change at no edge outside IDLE but a reset
edge; and no edge at all changes the parameters. Derived from 10_state.md R30, 70_reset_and_hazards.md R230, R243. -/
def Obligations.ConfigurationIsFixedDuringACommand : Prop :=
  ∀ (s t : State), step s = .next t →
    t.cfg = s.cfg ∧
    (∀ x rest, s.script = x :: rest → x.rst = false → s.st ≠ .idle →
      t.crcEn = s.crcEn ∧ t.maxRetry = s.maxRetry ∧ t.timeout = s.timeout)

/-- 60_exceptions.md R209: STATUS after the edge that finishes a command, for a success and for a final error. -/
def Obligations.StatusAfterACommandFinishes : Prop :=
  ∀ (s t : State) (x : Inputs) (rest : List Inputs), Inv s → s.script = x :: rest → x.rst = false →
    s.st ≠ .idle → step s = .next t → t.st = .idle →
    memRead t 0x04 =
      if t.errCode = 0 then
        0x0000000A ||| (t.attempt.setWidth 32 <<< 16) ||| ((BitVec.ofBool t.ovr).setWidth 32 <<< 2)
      else
        0x00000002 ||| ((BitVec.ofBool t.valid).setWidth 32 <<< 3) ||| (t.errCode.setWidth 32 <<< 4) |||
          (t.errCause.setWidth 32 <<< 8) ||| (t.errState.setWidth 32 <<< 12) ||| (t.attempt.setWidth 32 <<< 16) |||
          ((BitVec.ofBool t.ovr).setWidth 32 <<< 2)

/-- 40_sequencer.md R127: with `timeout` = 0, a transport that never accepts, or never responds, keeps the block in that
state for ever, BUSY stays 1, whatever the host does; only `rst` leaves the state. -/
def Obligations.StalledTransportHangsTheBlock : Prop :=
  ∀ (n : Nat) (s : State), Inv s → s.timeout = 0 → NoResetFor n s →
    (s.st.isReq = true ∧ (∀ x ∈ s.script.take n, x.bReqReady = false)) ∨
      (s.st.isRsp = true ∧ (∀ x ∈ s.script.take n, x.bRspValid = false)) →
    (runFor n s).st = s.st ∧ (memRead (runFor n s) 0x04).getLsbD 0 = true

/-- 70_reset_and_hazards.md R233, 10_state.md R51: a state holding an unused `st` encoding is stuck until reset, and BUSY
reads 1. Derived (R233 also speaks of states the block does reach). -/
def Obligations.UnusedStateIsStuckUntilReset : Prop :=
  ∀ (n : Nat) (s : State) (k : Fin 7), s.st = .unused k → NoResetFor n s →
    (runFor n s).st = .unused k ∧ (memRead (runFor n s) 0x04).getLsbD 0 = true

/-- 70_reset_and_hazards.md R251: with TIMEOUT = T ≥ 1 and MAX_RETRY = m, a START finishes within
(m + 1) × (3T + S + 1) edges, whatever the transport and the host do but reset. The START edge is edge 0. -/
def Obligations.StartFinishesWithinTheBound : Prop :=
  ∀ (s : State) (x : Inputs) (rest : List Inputs) (bound : Nat), s.cfg.Legal → s.st = .idle → s.timeout ≠ 0 →
    s.script = x :: rest → x.rst = false → x.hWr = true → wordIndex x.hAddr = 0 → x.hWdata.getLsbD 0 = true →
    bound = ((x.hWdata.extractLsb' 8 4 : BitVec 4).toNat + 1) * (3 * s.timeout.toNat + s.cfg.settleCycles + 1) →
    bound ≤ rest.length → (∀ y ∈ rest.take bound, y.rst = false) →
    ∃ k, k ≤ bound ∧ (runFor (k + 1) s).st = .idle ∧ (runFor (k + 1) s).done = true

/-- 40_sequencer.md R117's second half, word for word: "`b_cancel` is never 1 for two consecutive cycles". It FAILS by the
rules' own pseudocode: with TIMEOUT = 1 and a retry left, the retried BIND_REQ cycle is the cycle with `b_cancel` = 1,
its `to_cnt` is 1, and with `b_req_ready` = 1 that edge is a timeout with cancel again (R116; log entry 8). -/
def Obligations.CancelNeverLastsTwoCycles : Prop :=
  ∀ s t : State, Inv s → s.cancelQ = true → step s = .next t → t.cancelQ = false

/-- What does hold of R117, with R116, R124 and R130. `cancel_q` is 1 after an edge exactly when that edge takes the timeout
of a request the transport has accepted, in every state. These cancels are the ones a transport needs: one that keeps
account of its requests by the ports alone, and drops at a cancel the request accepted last before it (R130), owes after
every edge without reset exactly what `st` awaits, so no accepted request is left over (R124), whatever it answers. And
unless TIMEOUT is 1, `b_cancel` is 1 for one cycle at a time. Derived; the edge with TIMEOUT = 1 that sets it again is
log entry 8. -/
def Obligations.CancelFollowsATimeoutAndLastsOneCycleUnlessTimeoutIsOne : Prop :=
  (∀ (s t : State) (x : Inputs) (rest : List Inputs), s.script = x :: rest → step s = .next t →
    (t.cancelQ = true ↔ x.rst = false ∧ s.toCnt = 1 ∧
      (s.st.isReq = true ∧ x.bReqReady = true ∨ s.st.isRsp = true ∧ x.bRspValid = false))) ∧
  (∀ (s t : State) (x : Inputs) (rest : List Inputs) (a : Account),
    s.script = x :: rest → x.rst = false → step s = .next t → a.Agrees s → (a.cycle s.outputs x).Agrees t) ∧
  (∀ s t : State, Inv s → s.timeout ≠ 1 → s.cancelQ = true → step s = .next t → t.cancelQ = false)

/-! ### Decoder and conversion -/

/-- 41_decoder.md R150, R151: the checks in their order, the first failing one deciding, and the values of a frame that
passes them all. -/
def Obligations.DecoderChecksInOrder : Prop :=
  ∀ (p : Params) (f : Frame) (len : Byte) (crcEn : Bool),
    (len ≠ 7 → decodeFrame p f len crcEn = .err .length) ∧
    (len = 7 → f.b0.getLsbD 0 = true → decodeFrame p f len crcEn = .err .busy) ∧
    (len = 7 → f.b0.getLsbD 0 = false → crcEn = true →
      crc8 p.crcPoly p.crcInit [f.b0, f.b1, f.b2, f.b3, f.b4, f.b5] ≠ f.b6 →
      decodeFrame p f len crcEn = .err .checksum) ∧
    (len = 7 → f.b0.getLsbD 0 = false →
      (crcEn = true → crc8 p.crcPoly p.crcInit [f.b0, f.b1, f.b2, f.b3, f.b4, f.b5] = f.b6) →
      decodeFrame p f len crcEn =
        .ok (rawHumidity f) (rawTemperature f) (hum32 (rawHumidity f)) (temp32 p.convEval (rawTemperature f)))

/-- 41_decoder.md R157, R158: the raw fields are the source's sums of products, and lie below 2^20. -/
def Obligations.RawFieldsAreTheSourceFormulas : Prop :=
  ∀ f : Frame,
    (rawHumidity f).toNat = f.b1.toNat * 2 ^ 12 + f.b2.toNat * 2 ^ 4 + f.b3.toNat / 2 ^ 4 ∧
    (rawTemperature f).toNat = f.b3.toNat % 2 ^ 4 * 2 ^ 16 + f.b4.toNat * 2 ^ 8 + f.b5.toNat

/-- 41_decoder.md R164: which bits each raw field depends on, and that the map from those 40 bits to the two fields is a
bijection onto all pairs; bytes 0 and 6 enter neither. -/
def Obligations.RawFieldsAreABijection : Prop :=
  (∀ f g : Frame, f.b1 = g.b1 → f.b2 = g.b2 → (f.b3.extractLsb' 4 4 : BitVec 4) = g.b3.extractLsb' 4 4 →
    rawHumidity f = rawHumidity g) ∧
  (∀ f g : Frame, (f.b3.extractLsb' 0 4 : BitVec 4) = g.b3.extractLsb' 0 4 → f.b4 = g.b4 → f.b5 = g.b5 →
    rawTemperature f = rawTemperature g) ∧
  (∀ h t : BitVec 20, ∀ b0 b6 : Byte, ∃ b1 b2 b3 b4 b5 : Byte,
    rawHumidity { b0, b1, b2, b3, b4, b5, b6 } = h ∧ rawTemperature { b0, b1, b2, b3, b4, b5, b6 } = t) ∧
  (∀ f g : Frame, rawHumidity f = rawHumidity g ∧ rawTemperature f = rawTemperature g ↔
    f.b1 = g.b1 ∧ f.b2 = g.b2 ∧ f.b3 = g.b3 ∧ f.b4 = g.b4 ∧ f.b5 = g.b5)

/-- 41_decoder.md R159, R160: with CRC_EN = 0 neither byte 6 nor bits 7:1 of the status byte affect the result. -/
def Obligations.IgnoredFrameBitsDoNotMatter : Prop :=
  ∀ (p : Params) (f g : Frame) (len : Byte), f.b0.getLsbD 0 = g.b0.getLsbD 0 →
    f.b1 = g.b1 → f.b2 = g.b2 → f.b3 = g.b3 → f.b4 = g.b4 → f.b5 = g.b5 →
    decodeFrame p f len false = decodeFrame p g len false

/-- The checksum is the CRC of 41_decoder.md R155, at every length, polynomial and initial value. Read as a polynomial over
GF(2), it is the remainder modulo the generator x^8 + poly of the message times x^8, the initial value added above it
(most significant bit first, no reflection, no final XOR); a polynomial determines its byte, so this leaves no value
open. And it is affine: at equal lengths the XOR of two checksums under one initial value is the checksum of the XOR of
the messages under initial value 0. Derived. -/
def Obligations.ChecksumIsTheCrcRemainderAndAffine : Prop :=
  (∀ (poly init : Byte) (bs : List Byte),
    bytePoly (crc8 poly init bs) =
      (messagePoly bs * Polynomial.X ^ 8 + bytePoly init * Polynomial.X ^ (8 * bs.length)) %ₘ generatorPoly poly) ∧
  (∀ a b : Byte, bytePoly a = bytePoly b → a = b) ∧
  (∀ (poly init : Byte) (as bs : List Byte), as.length = bs.length →
    crc8 poly init as ^^^ crc8 poly init bs = crc8 poly 0 (List.zipWith (· ^^^ ·) as bs))

/-- 42_conversion.md R182 with R181: hum32 is the binary32 value nearest to raw_h × 100 / 2^20, ties to even. -/
def Obligations.HumidityIsTheNearestBinary32 : Prop :=
  ∀ raw : BitVec 20, IsRne32 ((raw.toNat : ℚ) * 100 / 2 ^ 20) (hum32 raw)

/-- 42_conversion.md R183, R184 with R181: EXACT_THEN_F32 rounds the exact temperature once; STEPWISE_F32 rounds the
product and then the difference. -/
def Obligations.TemperatureRoundsOnceOrTwice : Prop :=
  ∀ raw : BitVec 20,
    IsRne32 (((raw.toNat : ℚ) * 200 - 50 * 2 ^ 20) / 2 ^ 20) (temp32 .exactThenF32 raw) ∧
    ∃ t1 : Reg32, IsRne32 ((raw.toNat : ℚ) / 2 ^ 20 * 200) t1 ∧
      IsRne32 (f32Value t1 - 50) (temp32 .stepwiseF32 raw)

/-- 42_conversion.md R187: a greater raw value converts to a greater value, humidity and temperature, under both
evaluations. -/
def Obligations.ConversionsAreStrictlyIncreasing : Prop :=
  ∀ (a b : BitVec 20) (ev : ConvEval), a < b →
    f32Value (hum32 a) < f32Value (hum32 b) ∧ f32Value (temp32 ev a) < f32Value (temp32 ev b)

/-- 42_conversion.md R186: the ranges; no result is a NaN, an infinity, a subnormal or −0.0; the smallest non-zero
magnitudes; and zero results only at raw_h = 0 and raw_t = 0x40000, both +0.0. -/
def Obligations.ConversionsStayInRange : Prop :=
  (∀ (raw : BitVec 20) (ev : ConvEval),
    (0 ≤ f32Value (hum32 raw) ∧ f32Value (hum32 raw) ≤ f32Value 0x42C7FFF4) ∧
    (-50 ≤ f32Value (temp32 ev raw) ∧ f32Value (temp32 ev raw) ≤ f32Value 0x4315FFF4) ∧
    (if raw = 0 then hum32 raw = 0 else f32Normal (hum32 raw) = true ∧ 100 / 2 ^ 20 ≤ f32Value (hum32 raw)) ∧
    (if raw = 0x40000 then temp32 ev raw = 0
      else f32Normal (temp32 ev raw) = true ∧ 200 / 2 ^ 20 ≤ |f32Value (temp32 ev raw)|)) ∧
  f32Value (hum32 1) = 100 / 2 ^ 20 ∧ (∀ ev, f32Value (temp32 ev 0x40001) = 200 / 2 ^ 20)

/-- 42_conversion.md R185 as far as it says where and by how much the evaluations differ (the exact number of such codes
is left out): only between 0xA3D71 and 0xE3D6F inclusive, and by one unit in the last place. Derived. -/
def Obligations.EvaluationsDifferByOneUlpInOneRange : Prop :=
  ∀ raw : BitVec 20, temp32 .stepwiseF32 raw ≠ temp32 .exactThenF32 raw →
    0xA3D71 ≤ raw ∧ raw ≤ 0xE3D6F ∧
      (temp32 .exactThenF32 raw = temp32 .stepwiseF32 raw + 1 ∨ temp32 .stepwiseF32 raw = temp32 .exactThenF32 raw + 1)
end

