-- ==== Sys2Proof/Laws/Checksum.lean ====
section
/-! SUPPORT. Bytes as polynomials over GF(2): coefficients, degree and XOR, and what one shift and eight shifts of the
checksum register do modulo the generator (41_decoder.md R155). -/

namespace Sys2Proof.Safety

open Sys2Proof Sys2Proof.Machine Polynomial

/-- The coefficient of x^k is bit k; a byte has none above bit 7. -/
theorem bytePoly_coeff (b : Byte) (k : Nat) : (bytePoly b).coeff k = if b.getLsbD k then 1 else 0 := by
  have term : ∀ j, (if b.getLsbD j then (X ^ j : (ZMod 2)[X]) else 0).coeff k =
      if j = k then (if b.getLsbD k then 1 else 0) else 0 := by
    intro j
    rcases eq_or_ne j k with rfl | h
    · cases b.getLsbD j <;> simp
    · cases b.getLsbD j <;> simp [coeff_X_pow, h, Ne.symm h]
  simp only [bytePoly, finsetSum_coeff, term]
  rw [Finset.sum_ite_eq']
  by_cases hk : k < 8
  · simp [hk]
  · simp [hk, BitVec.getLsbD_of_ge b k (by omega)]

theorem bytePoly_degree_lt (b : Byte) : (bytePoly b).degree < (8 : ℕ) := by
  rw [degree_lt_iff_coeff_zero]
  intro m hm
  rw [bytePoly_coeff, BitVec.getLsbD_of_ge b m hm]; simp

/-- XOR is addition over GF(2). -/
theorem bytePoly_xor (a b : Byte) : bytePoly (a ^^^ b) = bytePoly a + bytePoly b := by
  ext k
  simp only [bytePoly_coeff, coeff_add, BitVec.getLsbD_xor]
  generalize a.getLsbD k = u
  generalize b.getLsbD k = v
  revert u v; decide

/-- Every polynomial over GF(2) is its own negative. -/
theorem poly_add_self (p : (ZMod 2)[X]) : p + p = 0 := by
  ext k
  simp only [coeff_add, coeff_zero]
  generalize p.coeff k = z
  revert z; decide

/-- A left shift is a multiplication by x, but for the bit that leaves. -/
theorem bytePoly_shiftLeft (c : Byte) :
    bytePoly (c <<< 1) + (if c.getLsbD 7 then X ^ 8 else 0) = bytePoly c * X := by
  ext k
  cases k with
  | zero => cases c.getLsbD 7 <;> simp [bytePoly_coeff]
  | succ k =>
    rw [coeff_mul_X, coeff_add, bytePoly_coeff, bytePoly_coeff]
    rcases Nat.lt_trichotomy k 7 with hk | rfl | hk
    · cases c.getLsbD 7 <;>
        simp [-BitVec.getLsbD_eq_getElem, coeff_X_pow, show k ≠ 7 by omega, show k + 1 < 8 by omega,
          BitVec.getLsbD_shiftLeft]
    · cases h : c.getLsbD 7 <;> simp [coeff_X_pow]
    · cases c.getLsbD 7 <;> simp [coeff_X_pow, show k ≠ 7 by omega, BitVec.getLsbD_of_ge c k (by omega)]

/-- One shift of the register multiplies by x modulo the generator. -/
theorem bytePoly_crcShift (poly c : Byte) :
    ∃ q, bytePoly (crcShift poly c) = bytePoly c * X + generatorPoly poly * q := by
  have h := bytePoly_shiftLeft c
  cases h7 : c.getLsbD 7
  · refine ⟨0, ?_⟩
    simp only [h7] at h
    simp only [crcShift, h7]
    simpa using h
  · refine ⟨1, ?_⟩
    simp only [h7, if_true] at h
    simp only [crcShift, h7, if_true, bytePoly_xor, generatorPoly]
    rw [← h]
    linear_combination -poly_add_self (X ^ 8)

/-- k shifts multiply by x^k modulo the generator. -/
theorem bytePoly_crcShifts (poly : Byte) (k : Nat) (c : Byte) :
    ∃ q, bytePoly (crcShifts poly k c) = bytePoly c * X ^ k + generatorPoly poly * q := by
  induction k generalizing c with
  | zero => exact ⟨0, by simp [crcShifts]⟩
  | succ k ih =>
    obtain ⟨q, h⟩ := bytePoly_crcShift poly c
    obtain ⟨r, h2⟩ := ih (crcShift poly c)
    exact ⟨q * X ^ k + r, by rw [crcShifts, h2, h]; ring⟩

theorem generatorPoly_monic (poly : Byte) : (generatorPoly poly).Monic :=
  monic_X_pow_add (bytePoly_degree_lt poly)

theorem generatorPoly_degree (poly : Byte) : (generatorPoly poly).degree = (8 : ℕ) := by
  rw [generatorPoly, degree_add_eq_left_of_degree_lt] <;> simp only [degree_X_pow]
  exact bytePoly_degree_lt poly

end Sys2Proof.Safety
end

