-- ==== Sys2Proof/Laws/Conversion.lean ====
section
/-! SUPPORT. What the conversion's operations do: the error of one rounding, and the value of a packed pattern. -/

namespace Sys2Proof.Machine

open Sys2Proof Sys2Proof.Safety

/-- One rounding moves a magnitude by at most half a unit in the last place (42_conversion.md R181). -/
theorem rne24_error (n : Nat) :
    2 * rne24 n ≤ 2 * n + 2 ^ (n.log2 - 23) ∧ 2 * n ≤ 2 * rne24 n + 2 ^ (n.log2 - 23) := by
  unfold rne24
  have hu : 0 < 2 ^ (n.log2 - 23) := Nat.two_pow_pos _
  generalize 2 ^ (n.log2 - 23) = u at hu
  have hn := Nat.div_add_mod n u
  have hr := Nat.mod_lt n hu
  simp only
  generalize n / u = q at *
  generalize n % u = r at *
  split
  · rename_i h
    rw [← hn, Nat.add_mul, Nat.mul_comm u q]; omega
  · rename_i h
    rw [← hn, Nat.mul_comm u q]; omega

/-- A magnitude below 2^24 units is not rounded. -/
theorem rne24_of_lt {n : Nat} (h : n < 2 ^ 24) : rne24 n = n := by
  have hl : n.log2 - 23 = 0 := by
    rcases Nat.eq_zero_or_pos n with rfl | hp
    · rfl
    · have := (Nat.log2_lt (by omega)).2 h; omega
  unfold rne24
  simp [hl, Nat.mod_one]

/-- The three fields of a binary32 pattern. -/
theorem f32_fields (neg : Bool) (e : BitVec 8) (f : BitVec 23) :
    ((BitVec.ofBool neg ++ e ++ f : Reg32).extractLsb' 23 8 = e) ∧
    ((BitVec.ofBool neg ++ e ++ f : Reg32).extractLsb' 0 23 = f) ∧
    ((BitVec.ofBool neg ++ e ++ f : Reg32).getLsbD 31 = neg) := by
  refine ⟨?_, BitVec.extractLsb'_append_eq_right, ?_⟩
  · ext i hi; simp; grind
  · simp only [BitVec.getLsbD_append]; simp

/-- The value of a pattern with the three fields of a normal number (42_conversion.md R180). -/
theorem f32Value_of_fields (neg : Bool) {e f : Nat} (he : 0 < e) (he' : e < 256) (hf : f < 2 ^ 23) :
    f32Value (BitVec.ofBool neg ++ BitVec.ofNat 8 e ++ BitVec.ofNat 23 f : Reg32) =
      (if neg then -1 else 1) * (((2 ^ 23 + f : Nat) : ℚ) * 2 ^ ((e : ℤ) - 150)) := by
  obtain ⟨h1, h2, h3⟩ := f32_fields neg (BitVec.ofNat 8 e) (BitVec.ofNat 23 f)
  unfold f32Value
  rw [h1, h2, h3, BitVec.toNat_ofNat, BitVec.toNat_ofNat, Nat.mod_eq_of_lt he', Nat.mod_eq_of_lt hf]
  cases neg <;> simp [Nat.ne_of_gt he]

/-- A magnitude of at most 24 significant bits is packed exactly: the pattern's value is ± n units of 2^-k. -/
theorem f32Value_packF32 (neg : Bool) {n k : Nat} (hn : 0 < n) (hd : 2 ^ (n.log2 - 23) ∣ n) (hk : k < n.log2 + 127)
    (hk' : n.log2 + 127 - k < 256) :
    f32Value (packF32 neg n k) = (if neg then -1 else 1) * ((n : ℚ) / 2 ^ k) := by
  have h1 : 2 ^ n.log2 ≤ n := Nat.log2_self_le (by omega)
  have h2 : n < 2 ^ (n.log2 + 1) := Nat.lt_log2_self
  have key : ∀ sig : Nat, 2 ^ 23 ≤ sig → sig < 2 ^ 24 → (sig : ℚ) * 2 ^ ((n.log2 : ℤ) - 23) = n →
      f32Value (BitVec.ofBool neg ++ BitVec.ofNat 8 (n.log2 + 127 - k) ++ BitVec.ofNat 23 (sig - 2 ^ 23) : Reg32) =
        (if neg then -1 else 1) * ((n : ℚ) / 2 ^ k) := by
    intro sig hl hu hs
    rw [f32Value_of_fields neg (by omega) hk' (by omega), Nat.add_sub_cancel' hl, ← hs]
    have he : ((n.log2 + 127 - k : Nat) : ℤ) - 150 = ((n.log2 : ℤ) - 23) - (k : ℤ) := by omega
    rw [he, zpow_sub₀ (by norm_num : (2 : ℚ) ≠ 0), zpow_natCast]
    ring
  unfold packF32
  rw [if_neg (by omega)]
  simp only
  by_cases hc : n.log2 ≤ 23
  · rw [if_pos hc]
    have hp : 2 ^ n.log2 * 2 ^ (23 - n.log2) = 2 ^ 23 := by rw [← pow_add]; congr 1; omega
    have hp' : 2 ^ (n.log2 + 1) * 2 ^ (23 - n.log2) = 2 ^ 24 := by rw [← pow_add]; congr 1; omega
    refine key _ ?_ ?_ ?_
    · rw [← hp]; exact Nat.mul_le_mul_right _ h1
    · rw [← hp']; exact Nat.mul_lt_mul_of_pos_right h2 (Nat.two_pow_pos _)
    · have hz : ((n.log2 : ℤ) - 23) = -((23 - n.log2 : Nat) : ℤ) := by omega
      rw [hz, zpow_neg, zpow_natCast]
      push_cast
      field_simp
  · rw [if_neg hc]
    obtain ⟨m, hm⟩ := hd
    have hp : 2 ^ (n.log2 - 23) * 2 ^ 23 = 2 ^ n.log2 := by rw [← pow_add]; congr 1; omega
    have hp' : 2 ^ (n.log2 - 23) * 2 ^ 24 = 2 ^ (n.log2 + 1) := by rw [← pow_add]; congr 1; omega
    have hu : 0 < 2 ^ (n.log2 - 23) := Nat.two_pow_pos _
    have hq : n / 2 ^ (n.log2 - 23) = m := Nat.div_eq_of_eq_mul_right hu hm
    rw [hq]
    refine key m ?_ ?_ ?_
    · exact Nat.le_of_mul_le_mul_left (by rw [hp, ← hm]; exact h1) hu
    · exact Nat.lt_of_mul_lt_mul_left (a := 2 ^ (n.log2 - 23)) (by rw [hp', ← hm]; exact h2)
    · have hz : ((n.log2 : ℤ) - 23) = ((n.log2 - 23 : Nat) : ℤ) := by omega
      rw [hz, zpow_natCast, mul_comm]
      exact_mod_cast hm.symm

end Sys2Proof.Machine
end

