-- ==== Sys2Proof/Laws/Encoding.lean ====
section
/-! SUPPORT. The fields of the port words, and decoding by fields: what a decoder reads from a word put together from
fields, so that later proofs never look at the bits of a word. -/

namespace Sys2Proof

/-! ### HOSTOP -/

theorem hostWord_w (wr rd : Bool) (a : Byte) (d : Reg32) : (hostWord wr rd a d).getLsbD 41 = wr := by
  simp only [hostWord, BitVec.getLsbD_append]; simp

theorem hostWord_r (wr rd : Bool) (a : Byte) (d : Reg32) : (hostWord wr rd a d).getLsbD 40 = rd := by
  simp only [hostWord, BitVec.getLsbD_append]; simp

theorem hostWord_a (wr rd : Bool) (a : Byte) (d : Reg32) : (hostWord wr rd a d).extractLsb' 32 8 = a := by
  simp only [hostWord]; ext i hi; simp; grind

theorem hostWord_d (wr rd : Bool) (a : Byte) (d : Reg32) : (hostWord wr rd a d).extractLsb' 0 32 = d := by
  simp only [hostWord]; exact BitVec.extractLsb'_append_eq_right

/-- A HOSTOP word is its four fields. -/
theorem hostWord_of_fields (w : HostWord) :
    hostWord (w.getLsbD 41) (w.getLsbD 40) (w.extractLsb' 32 8) (w.extractLsb' 0 32) = w := by
  simp only [hostWord]
  apply BitVec.eq_of_getLsbD_eq
  intro i hi
  simp only [BitVec.getLsbD_append, BitVec.getLsbD_ofBool, BitVec.getLsbD_extractLsb']
  obtain rfl | h : i = 41 ∨ i < 41 := by omega
  · simp
  · grind

/-- The decoder reads the fields a word was made of. -/
theorem decodeHost_hostWord (wr rd : Bool) (a : Byte) (d : Reg32) :
    decodeHost (hostWord wr rd a d) = decodeHostFields wr rd a d := by
  simp only [decodeHost, hostWord_w, hostWord_r, hostWord_a, hostWord_d]

/-! ### BUSRSP -/

theorem rspWord_e (e : Bool) (n : Byte) (d : BitVec 56) : (rspWord e n d).getLsbD 64 = e := by
  simp only [rspWord, BitVec.getLsbD_append]; simp

theorem rspWord_n (e : Bool) (n : Byte) (d : BitVec 56) : (rspWord e n d).extractLsb' 56 8 = n := by
  simp only [rspWord]; ext i hi; simp; grind

theorem rspWord_data (e : Bool) (n : Byte) (d : BitVec 56) : (rspWord e n d).extractLsb' 0 56 = d := by
  simp only [rspWord]; exact BitVec.extractLsb'_append_eq_right

/-- The decoder reads the fields a response was made of. -/
theorem decodeRsp_rspWord (reading e : Bool) (n : Byte) (d : BitVec 56) :
    decodeRsp reading (rspWord e n d) =
      match e, reading with
      | true, _ => .rspErr n d
      | false, true => .rspData n d
      | false, false => .rspOk n d := by
  cases e <;> cases reading <;> simp only [decodeRsp, rspWord_e, rspWord_n, rspWord_data]

/-! ### Offsets -/

theorem offsetOf_lo (i : BitVec 6) (lo : BitVec 2) : (offsetOf i lo).extractLsb' 0 2 = lo := by
  simp only [offsetOf]; exact BitVec.extractLsb'_append_eq_right

theorem offsetOf_index (i : BitVec 6) (lo : BitVec 2) : (offsetOf i lo).toNat / 4 = i.toNat := by
  have := lo.isLt
  simp only [offsetOf, BitVec.toNat_append]
  rw [← Nat.shiftLeft_add_eq_or_of_lt this, Nat.shiftLeft_eq]; omega

/-- An offset is its word index and its ignored low bits. -/
theorem offsetOf_of_fields (a : Byte) (i : BitVec 6) (h : a.toNat / 4 = i.toNat) :
    offsetOf i (a.extractLsb' 0 2) = a := by
  apply BitVec.eq_of_toNat_eq
  have := (a.extractLsb' 0 2).isLt
  simp only [offsetOf, BitVec.toNat_append]
  rw [← Nat.shiftLeft_add_eq_or_of_lt this, Nat.shiftLeft_eq]; simp; omega

/-- The word index of a register, where it has just one (10_state.md R31). -/
theorem ofOffset_index (a : Byte) :
    match HostReg.ofOffset a with
    | .ctrl => a.toNat / 4 = 0
    | .status => a.toNat / 4 = 1
    | .temp => a.toNat / 4 = 2
    | .hum => a.toNat / 4 = 3
    | .rawHum => a.toNat / 4 = 4
    | .rawTemp => a.toNat / 4 = 5
    | .frameLo => a.toNat / 4 = 6
    | .frameHi => a.toNat / 4 = 7
    | .frameLen => a.toNat / 4 = 8
    | .crc => a.toNat / 4 = 9
    | .timeout => a.toNat / 4 = 10
    | .info => a.toNat / 4 = 11
    | .reserved => 12 ≤ a.toNat / 4 := by
  unfold HostReg.ofOffset
  generalize a.toNat / 4 = k
  match k with
  | 0 | 1 | 2 | 3 | 4 | 5 | 6 | 7 | 8 | 9 | 10 | 11 => rfl
  | k + 12 => exact Nat.le_add_left 12 k

end Sys2Proof

namespace Sys2Proof.Machine

open Sys2Proof

/-- The host operation of a cycle is read from the host port's own fields. -/
theorem hostInstr_eq (s : State) :
    hostInstr s = decodeHostFields s.inp.hWr s.inp.hRd s.inp.hAddr s.inp.hWdata :=
  decodeHost_hostWord _ _ _ _

end Sys2Proof.Machine
end

