-- ==== Sys2Proof/Laws/State.lean ====
section
/-! SUPPORT. One lemma per field per record update of Machine/Ops.lean: what the update leaves in the field. -/

namespace Sys2Proof.Machine

open Sys2Proof

/-! ### hostRead -/

@[simp] theorem hostRead_cfg (rd : Bool) (off : Byte) (s : State) : (hostRead rd off s).cfg = s.cfg := rfl
@[simp] theorem hostRead_st (rd : Bool) (off : Byte) (s : State) : (hostRead rd off s).st = s.st := rfl
@[simp] theorem hostRead_mode (rd : Bool) (off : Byte) (s : State) : (hostRead rd off s).mode = s.mode := rfl
@[simp] theorem hostRead_attempt (rd : Bool) (off : Byte) (s : State) : (hostRead rd off s).attempt = s.attempt := rfl
@[simp] theorem hostRead_settleCnt (rd : Bool) (off : Byte) (s : State) : (hostRead rd off s).settleCnt = s.settleCnt := rfl
@[simp] theorem hostRead_toCnt (rd : Bool) (off : Byte) (s : State) : (hostRead rd off s).toCnt = s.toCnt := rfl
@[simp] theorem hostRead_cancelQ (rd : Bool) (off : Byte) (s : State) : (hostRead rd off s).cancelQ = s.cancelQ := rfl
@[simp] theorem hostRead_frame (rd : Bool) (off : Byte) (s : State) : (hostRead rd off s).frame = s.frame := rfl
@[simp] theorem hostRead_frameLen (rd : Bool) (off : Byte) (s : State) : (hostRead rd off s).frameLen = s.frameLen := rfl
@[simp] theorem hostRead_rawHum (rd : Bool) (off : Byte) (s : State) : (hostRead rd off s).rawHum = s.rawHum := rfl
@[simp] theorem hostRead_rawTemp (rd : Bool) (off : Byte) (s : State) : (hostRead rd off s).rawTemp = s.rawTemp := rfl
@[simp] theorem hostRead_hum (rd : Bool) (off : Byte) (s : State) : (hostRead rd off s).hum = s.hum := rfl
@[simp] theorem hostRead_temp (rd : Bool) (off : Byte) (s : State) : (hostRead rd off s).temp = s.temp := rfl
@[simp] theorem hostRead_done (rd : Bool) (off : Byte) (s : State) : (hostRead rd off s).done = s.done := rfl
@[simp] theorem hostRead_ovr (rd : Bool) (off : Byte) (s : State) : (hostRead rd off s).ovr = s.ovr := rfl
@[simp] theorem hostRead_valid (rd : Bool) (off : Byte) (s : State) : (hostRead rd off s).valid = s.valid := rfl
@[simp] theorem hostRead_errCode (rd : Bool) (off : Byte) (s : State) : (hostRead rd off s).errCode = s.errCode := rfl
@[simp] theorem hostRead_errCause (rd : Bool) (off : Byte) (s : State) : (hostRead rd off s).errCause = s.errCause := rfl
@[simp] theorem hostRead_errState (rd : Bool) (off : Byte) (s : State) : (hostRead rd off s).errState = s.errState := rfl
@[simp] theorem hostRead_crcEn (rd : Bool) (off : Byte) (s : State) : (hostRead rd off s).crcEn = s.crcEn := rfl
@[simp] theorem hostRead_ie (rd : Bool) (off : Byte) (s : State) : (hostRead rd off s).ie = s.ie := rfl
@[simp] theorem hostRead_maxRetry (rd : Bool) (off : Byte) (s : State) : (hostRead rd off s).maxRetry = s.maxRetry := rfl
@[simp] theorem hostRead_timeout (rd : Bool) (off : Byte) (s : State) : (hostRead rd off s).timeout = s.timeout := rfl
@[simp] theorem hostRead_hRdata (rd : Bool) (off : Byte) (s : State) : (hostRead rd off s).hRdata = if rd then memRead s off else s.hRdata := rfl
@[simp] theorem hostRead_hRvalid (rd : Bool) (off : Byte) (s : State) : (hostRead rd off s).hRvalid = rd := rfl
@[simp] theorem hostRead_bound (rd : Bool) (off : Byte) (s : State) : (hostRead rd off s).bound = s.bound := rfl
@[simp] theorem hostRead_inp (rd : Bool) (off : Byte) (s : State) : (hostRead rd off s).inp = s.inp := rfl
@[simp] theorem hostRead_script (rd : Bool) (off : Byte) (s : State) : (hostRead rd off s).script = s.script := rfl
@[simp] theorem hostRead_draws (rd : Bool) (off : Byte) (s : State) : (hostRead rd off s).draws = s.draws := rfl

/-! ### writeConfig -/

@[simp] theorem writeConfig_cfg (d : Reg32) (s : State) : (writeConfig d s).cfg = s.cfg := rfl
@[simp] theorem writeConfig_st (d : Reg32) (s : State) : (writeConfig d s).st = s.st := rfl
@[simp] theorem writeConfig_mode (d : Reg32) (s : State) : (writeConfig d s).mode = s.mode := rfl
@[simp] theorem writeConfig_attempt (d : Reg32) (s : State) : (writeConfig d s).attempt = s.attempt := rfl
@[simp] theorem writeConfig_settleCnt (d : Reg32) (s : State) : (writeConfig d s).settleCnt = s.settleCnt := rfl
@[simp] theorem writeConfig_toCnt (d : Reg32) (s : State) : (writeConfig d s).toCnt = s.toCnt := rfl
@[simp] theorem writeConfig_cancelQ (d : Reg32) (s : State) : (writeConfig d s).cancelQ = s.cancelQ := rfl
@[simp] theorem writeConfig_frame (d : Reg32) (s : State) : (writeConfig d s).frame = s.frame := rfl
@[simp] theorem writeConfig_frameLen (d : Reg32) (s : State) : (writeConfig d s).frameLen = s.frameLen := rfl
@[simp] theorem writeConfig_rawHum (d : Reg32) (s : State) : (writeConfig d s).rawHum = s.rawHum := rfl
@[simp] theorem writeConfig_rawTemp (d : Reg32) (s : State) : (writeConfig d s).rawTemp = s.rawTemp := rfl
@[simp] theorem writeConfig_hum (d : Reg32) (s : State) : (writeConfig d s).hum = s.hum := rfl
@[simp] theorem writeConfig_temp (d : Reg32) (s : State) : (writeConfig d s).temp = s.temp := rfl
@[simp] theorem writeConfig_done (d : Reg32) (s : State) : (writeConfig d s).done = s.done := rfl
@[simp] theorem writeConfig_ovr (d : Reg32) (s : State) : (writeConfig d s).ovr = s.ovr := rfl
@[simp] theorem writeConfig_valid (d : Reg32) (s : State) : (writeConfig d s).valid = s.valid := rfl
@[simp] theorem writeConfig_errCode (d : Reg32) (s : State) : (writeConfig d s).errCode = s.errCode := rfl
@[simp] theorem writeConfig_errCause (d : Reg32) (s : State) : (writeConfig d s).errCause = s.errCause := rfl
@[simp] theorem writeConfig_errState (d : Reg32) (s : State) : (writeConfig d s).errState = s.errState := rfl
@[simp] theorem writeConfig_crcEn (d : Reg32) (s : State) : (writeConfig d s).crcEn = if s.st = .idle then ctrlCrcEn d else s.crcEn := rfl
@[simp] theorem writeConfig_ie (d : Reg32) (s : State) : (writeConfig d s).ie = ctrlIe d := rfl
@[simp] theorem writeConfig_maxRetry (d : Reg32) (s : State) : (writeConfig d s).maxRetry = if s.st = .idle then ctrlMaxRetry d else s.maxRetry := rfl
@[simp] theorem writeConfig_timeout (d : Reg32) (s : State) : (writeConfig d s).timeout = s.timeout := rfl
@[simp] theorem writeConfig_hRdata (d : Reg32) (s : State) : (writeConfig d s).hRdata = s.hRdata := rfl
@[simp] theorem writeConfig_hRvalid (d : Reg32) (s : State) : (writeConfig d s).hRvalid = s.hRvalid := rfl
@[simp] theorem writeConfig_bound (d : Reg32) (s : State) : (writeConfig d s).bound = s.bound := rfl
@[simp] theorem writeConfig_inp (d : Reg32) (s : State) : (writeConfig d s).inp = s.inp := rfl
@[simp] theorem writeConfig_script (d : Reg32) (s : State) : (writeConfig d s).script = s.script := rfl
@[simp] theorem writeConfig_draws (d : Reg32) (s : State) : (writeConfig d s).draws = s.draws := rfl

/-! ### clearError -/

@[simp] theorem clearError_cfg (s : State) : (clearError s).cfg = s.cfg := rfl
@[simp] theorem clearError_st (s : State) : (clearError s).st = s.st := rfl
@[simp] theorem clearError_mode (s : State) : (clearError s).mode = s.mode := rfl
@[simp] theorem clearError_attempt (s : State) : (clearError s).attempt = s.attempt := rfl
@[simp] theorem clearError_settleCnt (s : State) : (clearError s).settleCnt = s.settleCnt := rfl
@[simp] theorem clearError_toCnt (s : State) : (clearError s).toCnt = s.toCnt := rfl
@[simp] theorem clearError_cancelQ (s : State) : (clearError s).cancelQ = s.cancelQ := rfl
@[simp] theorem clearError_frame (s : State) : (clearError s).frame = s.frame := rfl
@[simp] theorem clearError_frameLen (s : State) : (clearError s).frameLen = s.frameLen := rfl
@[simp] theorem clearError_rawHum (s : State) : (clearError s).rawHum = s.rawHum := rfl
@[simp] theorem clearError_rawTemp (s : State) : (clearError s).rawTemp = s.rawTemp := rfl
@[simp] theorem clearError_hum (s : State) : (clearError s).hum = s.hum := rfl
@[simp] theorem clearError_temp (s : State) : (clearError s).temp = s.temp := rfl
@[simp] theorem clearError_done (s : State) : (clearError s).done = s.done := rfl
@[simp] theorem clearError_ovr (s : State) : (clearError s).ovr = s.ovr := rfl
@[simp] theorem clearError_valid (s : State) : (clearError s).valid = s.valid := rfl
@[simp] theorem clearError_errCode (s : State) : (clearError s).errCode = 0 := rfl
@[simp] theorem clearError_errCause (s : State) : (clearError s).errCause = 0 := rfl
@[simp] theorem clearError_errState (s : State) : (clearError s).errState = 0 := rfl
@[simp] theorem clearError_crcEn (s : State) : (clearError s).crcEn = s.crcEn := rfl
@[simp] theorem clearError_ie (s : State) : (clearError s).ie = s.ie := rfl
@[simp] theorem clearError_maxRetry (s : State) : (clearError s).maxRetry = s.maxRetry := rfl
@[simp] theorem clearError_timeout (s : State) : (clearError s).timeout = s.timeout := rfl
@[simp] theorem clearError_hRdata (s : State) : (clearError s).hRdata = s.hRdata := rfl
@[simp] theorem clearError_hRvalid (s : State) : (clearError s).hRvalid = s.hRvalid := rfl
@[simp] theorem clearError_bound (s : State) : (clearError s).bound = s.bound := rfl
@[simp] theorem clearError_inp (s : State) : (clearError s).inp = s.inp := rfl
@[simp] theorem clearError_script (s : State) : (clearError s).script = s.script := rfl
@[simp] theorem clearError_draws (s : State) : (clearError s).draws = s.draws := rfl

/-! ### beginCommand -/

@[simp] theorem beginCommand_cfg (m : Mode) (s : State) : (beginCommand m s).cfg = s.cfg := rfl
@[simp] theorem beginCommand_st (m : Mode) (s : State) : (beginCommand m s).st = s.st := rfl
@[simp] theorem beginCommand_mode (m : Mode) (s : State) : (beginCommand m s).mode = m := rfl
@[simp] theorem beginCommand_attempt (m : Mode) (s : State) : (beginCommand m s).attempt = 0 := rfl
@[simp] theorem beginCommand_settleCnt (m : Mode) (s : State) : (beginCommand m s).settleCnt = s.settleCnt := rfl
@[simp] theorem beginCommand_toCnt (m : Mode) (s : State) : (beginCommand m s).toCnt = s.toCnt := rfl
@[simp] theorem beginCommand_cancelQ (m : Mode) (s : State) : (beginCommand m s).cancelQ = s.cancelQ := rfl
@[simp] theorem beginCommand_frame (m : Mode) (s : State) : (beginCommand m s).frame = s.frame := rfl
@[simp] theorem beginCommand_frameLen (m : Mode) (s : State) : (beginCommand m s).frameLen = s.frameLen := rfl
@[simp] theorem beginCommand_rawHum (m : Mode) (s : State) : (beginCommand m s).rawHum = s.rawHum := rfl
@[simp] theorem beginCommand_rawTemp (m : Mode) (s : State) : (beginCommand m s).rawTemp = s.rawTemp := rfl
@[simp] theorem beginCommand_hum (m : Mode) (s : State) : (beginCommand m s).hum = s.hum := rfl
@[simp] theorem beginCommand_temp (m : Mode) (s : State) : (beginCommand m s).temp = s.temp := rfl
@[simp] theorem beginCommand_done (m : Mode) (s : State) : (beginCommand m s).done = false := rfl
@[simp] theorem beginCommand_ovr (m : Mode) (s : State) : (beginCommand m s).ovr = s.ovr := rfl
@[simp] theorem beginCommand_valid (m : Mode) (s : State) : (beginCommand m s).valid = s.valid := rfl
@[simp] theorem beginCommand_errCode (m : Mode) (s : State) : (beginCommand m s).errCode = 0 := rfl
@[simp] theorem beginCommand_errCause (m : Mode) (s : State) : (beginCommand m s).errCause = 0 := rfl
@[simp] theorem beginCommand_errState (m : Mode) (s : State) : (beginCommand m s).errState = 0 := rfl
@[simp] theorem beginCommand_crcEn (m : Mode) (s : State) : (beginCommand m s).crcEn = s.crcEn := rfl
@[simp] theorem beginCommand_ie (m : Mode) (s : State) : (beginCommand m s).ie = s.ie := rfl
@[simp] theorem beginCommand_maxRetry (m : Mode) (s : State) : (beginCommand m s).maxRetry = s.maxRetry := rfl
@[simp] theorem beginCommand_timeout (m : Mode) (s : State) : (beginCommand m s).timeout = s.timeout := rfl
@[simp] theorem beginCommand_hRdata (m : Mode) (s : State) : (beginCommand m s).hRdata = s.hRdata := rfl
@[simp] theorem beginCommand_hRvalid (m : Mode) (s : State) : (beginCommand m s).hRvalid = s.hRvalid := rfl
@[simp] theorem beginCommand_bound (m : Mode) (s : State) : (beginCommand m s).bound = s.bound := rfl
@[simp] theorem beginCommand_inp (m : Mode) (s : State) : (beginCommand m s).inp = s.inp := rfl
@[simp] theorem beginCommand_script (m : Mode) (s : State) : (beginCommand m s).script = s.script := rfl
@[simp] theorem beginCommand_draws (m : Mode) (s : State) : (beginCommand m s).draws = s.draws := rfl

/-! ### beginAttempt -/

@[simp] theorem beginAttempt_cfg (s : State) : (beginAttempt s).cfg = s.cfg := rfl
@[simp] theorem beginAttempt_st (s : State) : (beginAttempt s).st = .bindReq := rfl
@[simp] theorem beginAttempt_mode (s : State) : (beginAttempt s).mode = s.mode := rfl
@[simp] theorem beginAttempt_attempt (s : State) : (beginAttempt s).attempt = s.attempt := rfl
@[simp] theorem beginAttempt_settleCnt (s : State) : (beginAttempt s).settleCnt = s.settleCnt := rfl
@[simp] theorem beginAttempt_toCnt (s : State) : (beginAttempt s).toCnt = s.timeout := rfl
@[simp] theorem beginAttempt_cancelQ (s : State) : (beginAttempt s).cancelQ = s.cancelQ := rfl
@[simp] theorem beginAttempt_frame (s : State) : (beginAttempt s).frame = s.frame := rfl
@[simp] theorem beginAttempt_frameLen (s : State) : (beginAttempt s).frameLen = s.frameLen := rfl
@[simp] theorem beginAttempt_rawHum (s : State) : (beginAttempt s).rawHum = s.rawHum := rfl
@[simp] theorem beginAttempt_rawTemp (s : State) : (beginAttempt s).rawTemp = s.rawTemp := rfl
@[simp] theorem beginAttempt_hum (s : State) : (beginAttempt s).hum = s.hum := rfl
@[simp] theorem beginAttempt_temp (s : State) : (beginAttempt s).temp = s.temp := rfl
@[simp] theorem beginAttempt_done (s : State) : (beginAttempt s).done = s.done := rfl
@[simp] theorem beginAttempt_ovr (s : State) : (beginAttempt s).ovr = s.ovr := rfl
@[simp] theorem beginAttempt_valid (s : State) : (beginAttempt s).valid = s.valid := rfl
@[simp] theorem beginAttempt_errCode (s : State) : (beginAttempt s).errCode = s.errCode := rfl
@[simp] theorem beginAttempt_errCause (s : State) : (beginAttempt s).errCause = s.errCause := rfl
@[simp] theorem beginAttempt_errState (s : State) : (beginAttempt s).errState = s.errState := rfl
@[simp] theorem beginAttempt_crcEn (s : State) : (beginAttempt s).crcEn = s.crcEn := rfl
@[simp] theorem beginAttempt_ie (s : State) : (beginAttempt s).ie = s.ie := rfl
@[simp] theorem beginAttempt_maxRetry (s : State) : (beginAttempt s).maxRetry = s.maxRetry := rfl
@[simp] theorem beginAttempt_timeout (s : State) : (beginAttempt s).timeout = s.timeout := rfl
@[simp] theorem beginAttempt_hRdata (s : State) : (beginAttempt s).hRdata = s.hRdata := rfl
@[simp] theorem beginAttempt_hRvalid (s : State) : (beginAttempt s).hRvalid = s.hRvalid := rfl
@[simp] theorem beginAttempt_bound (s : State) : (beginAttempt s).bound = s.bound := rfl
@[simp] theorem beginAttempt_inp (s : State) : (beginAttempt s).inp = s.inp := rfl
@[simp] theorem beginAttempt_script (s : State) : (beginAttempt s).script = s.script := rfl
@[simp] theorem beginAttempt_draws (s : State) : (beginAttempt s).draws = s.draws := rfl

/-! ### writeStatus -/

@[simp] theorem writeStatus_cfg (d : Reg32) (s : State) : (writeStatus d s).cfg = s.cfg := rfl
@[simp] theorem writeStatus_st (d : Reg32) (s : State) : (writeStatus d s).st = s.st := rfl
@[simp] theorem writeStatus_mode (d : Reg32) (s : State) : (writeStatus d s).mode = s.mode := rfl
@[simp] theorem writeStatus_attempt (d : Reg32) (s : State) : (writeStatus d s).attempt = s.attempt := rfl
@[simp] theorem writeStatus_settleCnt (d : Reg32) (s : State) : (writeStatus d s).settleCnt = s.settleCnt := rfl
@[simp] theorem writeStatus_toCnt (d : Reg32) (s : State) : (writeStatus d s).toCnt = s.toCnt := rfl
@[simp] theorem writeStatus_cancelQ (d : Reg32) (s : State) : (writeStatus d s).cancelQ = s.cancelQ := rfl
@[simp] theorem writeStatus_frame (d : Reg32) (s : State) : (writeStatus d s).frame = s.frame := rfl
@[simp] theorem writeStatus_frameLen (d : Reg32) (s : State) : (writeStatus d s).frameLen = s.frameLen := rfl
@[simp] theorem writeStatus_rawHum (d : Reg32) (s : State) : (writeStatus d s).rawHum = s.rawHum := rfl
@[simp] theorem writeStatus_rawTemp (d : Reg32) (s : State) : (writeStatus d s).rawTemp = s.rawTemp := rfl
@[simp] theorem writeStatus_hum (d : Reg32) (s : State) : (writeStatus d s).hum = s.hum := rfl
@[simp] theorem writeStatus_temp (d : Reg32) (s : State) : (writeStatus d s).temp = s.temp := rfl
@[simp] theorem writeStatus_done (d : Reg32) (s : State) : (writeStatus d s).done = (s.done && !d.getLsbD 1) := rfl
@[simp] theorem writeStatus_ovr (d : Reg32) (s : State) : (writeStatus d s).ovr = (s.ovr && !d.getLsbD 2) := rfl
@[simp] theorem writeStatus_valid (d : Reg32) (s : State) : (writeStatus d s).valid = s.valid := rfl
@[simp] theorem writeStatus_errCode (d : Reg32) (s : State) : (writeStatus d s).errCode = s.errCode := rfl
@[simp] theorem writeStatus_errCause (d : Reg32) (s : State) : (writeStatus d s).errCause = s.errCause := rfl
@[simp] theorem writeStatus_errState (d : Reg32) (s : State) : (writeStatus d s).errState = s.errState := rfl
@[simp] theorem writeStatus_crcEn (d : Reg32) (s : State) : (writeStatus d s).crcEn = s.crcEn := rfl
@[simp] theorem writeStatus_ie (d : Reg32) (s : State) : (writeStatus d s).ie = s.ie := rfl
@[simp] theorem writeStatus_maxRetry (d : Reg32) (s : State) : (writeStatus d s).maxRetry = s.maxRetry := rfl
@[simp] theorem writeStatus_timeout (d : Reg32) (s : State) : (writeStatus d s).timeout = s.timeout := rfl
@[simp] theorem writeStatus_hRdata (d : Reg32) (s : State) : (writeStatus d s).hRdata = s.hRdata := rfl
@[simp] theorem writeStatus_hRvalid (d : Reg32) (s : State) : (writeStatus d s).hRvalid = s.hRvalid := rfl
@[simp] theorem writeStatus_bound (d : Reg32) (s : State) : (writeStatus d s).bound = s.bound := rfl
@[simp] theorem writeStatus_inp (d : Reg32) (s : State) : (writeStatus d s).inp = s.inp := rfl
@[simp] theorem writeStatus_script (d : Reg32) (s : State) : (writeStatus d s).script = s.script := rfl
@[simp] theorem writeStatus_draws (d : Reg32) (s : State) : (writeStatus d s).draws = s.draws := rfl

/-! ### recordError -/

@[simp] theorem recordError_cfg (e : ProtocolError) (s : State) : (recordError e s).cfg = s.cfg := rfl
@[simp] theorem recordError_st (e : ProtocolError) (s : State) : (recordError e s).st = s.st := rfl
@[simp] theorem recordError_mode (e : ProtocolError) (s : State) : (recordError e s).mode = s.mode := rfl
@[simp] theorem recordError_attempt (e : ProtocolError) (s : State) : (recordError e s).attempt = s.attempt := rfl
@[simp] theorem recordError_settleCnt (e : ProtocolError) (s : State) : (recordError e s).settleCnt = s.settleCnt := rfl
@[simp] theorem recordError_toCnt (e : ProtocolError) (s : State) : (recordError e s).toCnt = s.toCnt := rfl
@[simp] theorem recordError_cancelQ (e : ProtocolError) (s : State) : (recordError e s).cancelQ = s.cancelQ := rfl
@[simp] theorem recordError_frame (e : ProtocolError) (s : State) : (recordError e s).frame = s.frame := rfl
@[simp] theorem recordError_frameLen (e : ProtocolError) (s : State) : (recordError e s).frameLen = s.frameLen := rfl
@[simp] theorem recordError_rawHum (e : ProtocolError) (s : State) : (recordError e s).rawHum = s.rawHum := rfl
@[simp] theorem recordError_rawTemp (e : ProtocolError) (s : State) : (recordError e s).rawTemp = s.rawTemp := rfl
@[simp] theorem recordError_hum (e : ProtocolError) (s : State) : (recordError e s).hum = s.hum := rfl
@[simp] theorem recordError_temp (e : ProtocolError) (s : State) : (recordError e s).temp = s.temp := rfl
@[simp] theorem recordError_done (e : ProtocolError) (s : State) : (recordError e s).done = s.done := rfl
@[simp] theorem recordError_ovr (e : ProtocolError) (s : State) : (recordError e s).ovr = s.ovr := rfl
@[simp] theorem recordError_valid (e : ProtocolError) (s : State) : (recordError e s).valid = s.valid := rfl
@[simp] theorem recordError_errCode (e : ProtocolError) (s : State) : (recordError e s).errCode = e.code := rfl
@[simp] theorem recordError_errCause (e : ProtocolError) (s : State) : (recordError e s).errCause = e.cause := rfl
@[simp] theorem recordError_errState (e : ProtocolError) (s : State) : (recordError e s).errState = s.st.code := rfl
@[simp] theorem recordError_crcEn (e : ProtocolError) (s : State) : (recordError e s).crcEn = s.crcEn := rfl
@[simp] theorem recordError_ie (e : ProtocolError) (s : State) : (recordError e s).ie = s.ie := rfl
@[simp] theorem recordError_maxRetry (e : ProtocolError) (s : State) : (recordError e s).maxRetry = s.maxRetry := rfl
@[simp] theorem recordError_timeout (e : ProtocolError) (s : State) : (recordError e s).timeout = s.timeout := rfl
@[simp] theorem recordError_hRdata (e : ProtocolError) (s : State) : (recordError e s).hRdata = s.hRdata := rfl
@[simp] theorem recordError_hRvalid (e : ProtocolError) (s : State) : (recordError e s).hRvalid = s.hRvalid := rfl
@[simp] theorem recordError_bound (e : ProtocolError) (s : State) : (recordError e s).bound = s.bound := rfl
@[simp] theorem recordError_inp (e : ProtocolError) (s : State) : (recordError e s).inp = s.inp := rfl
@[simp] theorem recordError_script (e : ProtocolError) (s : State) : (recordError e s).script = s.script := rfl
@[simp] theorem recordError_draws (e : ProtocolError) (s : State) : (recordError e s).draws = s.draws := rfl

/-! ### complete -/

@[simp] theorem complete_cfg (h t : BitVec 20) (hb tb : Reg32) (s : State) : (complete h t hb tb s).cfg = s.cfg := rfl
@[simp] theorem complete_st (h t : BitVec 20) (hb tb : Reg32) (s : State) : (complete h t hb tb s).st = .idle := rfl
@[simp] theorem complete_mode (h t : BitVec 20) (hb tb : Reg32) (s : State) : (complete h t hb tb s).mode = s.mode := rfl
@[simp] theorem complete_attempt (h t : BitVec 20) (hb tb : Reg32) (s : State) : (complete h t hb tb s).attempt = s.attempt := rfl
@[simp] theorem complete_settleCnt (h t : BitVec 20) (hb tb : Reg32) (s : State) : (complete h t hb tb s).settleCnt = s.settleCnt := rfl
@[simp] theorem complete_toCnt (h t : BitVec 20) (hb tb : Reg32) (s : State) : (complete h t hb tb s).toCnt = s.toCnt := rfl
@[simp] theorem complete_cancelQ (h t : BitVec 20) (hb tb : Reg32) (s : State) : (complete h t hb tb s).cancelQ = s.cancelQ := rfl
@[simp] theorem complete_frame (h t : BitVec 20) (hb tb : Reg32) (s : State) : (complete h t hb tb s).frame = s.frame := rfl
@[simp] theorem complete_frameLen (h t : BitVec 20) (hb tb : Reg32) (s : State) : (complete h t hb tb s).frameLen = s.frameLen := rfl
@[simp] theorem complete_rawHum (h t : BitVec 20) (hb tb : Reg32) (s : State) : (complete h t hb tb s).rawHum = h := rfl
@[simp] theorem complete_rawTemp (h t : BitVec 20) (hb tb : Reg32) (s : State) : (complete h t hb tb s).rawTemp = t := rfl
@[simp] theorem complete_hum (h t : BitVec 20) (hb tb : Reg32) (s : State) : (complete h t hb tb s).hum = hb := rfl
@[simp] theorem complete_temp (h t : BitVec 20) (hb tb : Reg32) (s : State) : (complete h t hb tb s).temp = tb := rfl
@[simp] theorem complete_done (h t : BitVec 20) (hb tb : Reg32) (s : State) : (complete h t hb tb s).done = true := rfl
@[simp] theorem complete_ovr (h t : BitVec 20) (hb tb : Reg32) (s : State) : (complete h t hb tb s).ovr = s.ovr := rfl
@[simp] theorem complete_valid (h t : BitVec 20) (hb tb : Reg32) (s : State) : (complete h t hb tb s).valid = true := rfl
@[simp] theorem complete_errCode (h t : BitVec 20) (hb tb : Reg32) (s : State) : (complete h t hb tb s).errCode = 0 := rfl
@[simp] theorem complete_errCause (h t : BitVec 20) (hb tb : Reg32) (s : State) : (complete h t hb tb s).errCause = 0 := rfl
@[simp] theorem complete_errState (h t : BitVec 20) (hb tb : Reg32) (s : State) : (complete h t hb tb s).errState = 0 := rfl
@[simp] theorem complete_crcEn (h t : BitVec 20) (hb tb : Reg32) (s : State) : (complete h t hb tb s).crcEn = s.crcEn := rfl
@[simp] theorem complete_ie (h t : BitVec 20) (hb tb : Reg32) (s : State) : (complete h t hb tb s).ie = s.ie := rfl
@[simp] theorem complete_maxRetry (h t : BitVec 20) (hb tb : Reg32) (s : State) : (complete h t hb tb s).maxRetry = s.maxRetry := rfl
@[simp] theorem complete_timeout (h t : BitVec 20) (hb tb : Reg32) (s : State) : (complete h t hb tb s).timeout = s.timeout := rfl
@[simp] theorem complete_hRdata (h t : BitVec 20) (hb tb : Reg32) (s : State) : (complete h t hb tb s).hRdata = s.hRdata := rfl
@[simp] theorem complete_hRvalid (h t : BitVec 20) (hb tb : Reg32) (s : State) : (complete h t hb tb s).hRvalid = s.hRvalid := rfl
@[simp] theorem complete_bound (h t : BitVec 20) (hb tb : Reg32) (s : State) : (complete h t hb tb s).bound = s.bound := rfl
@[simp] theorem complete_inp (h t : BitVec 20) (hb tb : Reg32) (s : State) : (complete h t hb tb s).inp = s.inp := rfl
@[simp] theorem complete_script (h t : BitVec 20) (hb tb : Reg32) (s : State) : (complete h t hb tb s).script = s.script := rfl
@[simp] theorem complete_draws (h t : BitVec 20) (hb tb : Reg32) (s : State) : (complete h t hb tb s).draws = s.draws := rfl

/-! ### bindDone -/

@[simp] theorem bindDone_cfg (s : State) : (bindDone s).cfg = s.cfg := rfl
@[simp] theorem bindDone_st (s : State) : (bindDone s).st = .writeReq := rfl
@[simp] theorem bindDone_mode (s : State) : (bindDone s).mode = s.mode := rfl
@[simp] theorem bindDone_attempt (s : State) : (bindDone s).attempt = s.attempt := rfl
@[simp] theorem bindDone_settleCnt (s : State) : (bindDone s).settleCnt = s.settleCnt := rfl
@[simp] theorem bindDone_toCnt (s : State) : (bindDone s).toCnt = s.timeout := rfl
@[simp] theorem bindDone_cancelQ (s : State) : (bindDone s).cancelQ = s.cancelQ := rfl
@[simp] theorem bindDone_frame (s : State) : (bindDone s).frame = s.frame := rfl
@[simp] theorem bindDone_frameLen (s : State) : (bindDone s).frameLen = s.frameLen := rfl
@[simp] theorem bindDone_rawHum (s : State) : (bindDone s).rawHum = s.rawHum := rfl
@[simp] theorem bindDone_rawTemp (s : State) : (bindDone s).rawTemp = s.rawTemp := rfl
@[simp] theorem bindDone_hum (s : State) : (bindDone s).hum = s.hum := rfl
@[simp] theorem bindDone_temp (s : State) : (bindDone s).temp = s.temp := rfl
@[simp] theorem bindDone_done (s : State) : (bindDone s).done = s.done := rfl
@[simp] theorem bindDone_ovr (s : State) : (bindDone s).ovr = s.ovr := rfl
@[simp] theorem bindDone_valid (s : State) : (bindDone s).valid = s.valid := rfl
@[simp] theorem bindDone_errCode (s : State) : (bindDone s).errCode = s.errCode := rfl
@[simp] theorem bindDone_errCause (s : State) : (bindDone s).errCause = s.errCause := rfl
@[simp] theorem bindDone_errState (s : State) : (bindDone s).errState = s.errState := rfl
@[simp] theorem bindDone_crcEn (s : State) : (bindDone s).crcEn = s.crcEn := rfl
@[simp] theorem bindDone_ie (s : State) : (bindDone s).ie = s.ie := rfl
@[simp] theorem bindDone_maxRetry (s : State) : (bindDone s).maxRetry = s.maxRetry := rfl
@[simp] theorem bindDone_timeout (s : State) : (bindDone s).timeout = s.timeout := rfl
@[simp] theorem bindDone_hRdata (s : State) : (bindDone s).hRdata = s.hRdata := rfl
@[simp] theorem bindDone_hRvalid (s : State) : (bindDone s).hRvalid = s.hRvalid := rfl
@[simp] theorem bindDone_bound (s : State) : (bindDone s).bound = some Config.sensorAddr := rfl
@[simp] theorem bindDone_inp (s : State) : (bindDone s).inp = s.inp := rfl
@[simp] theorem bindDone_script (s : State) : (bindDone s).script = s.script := rfl
@[simp] theorem bindDone_draws (s : State) : (bindDone s).draws = s.draws := rfl

/-! ### writeDone -/

@[simp] theorem writeDone_cfg (s : State) : (writeDone s).cfg = s.cfg := rfl
@[simp] theorem writeDone_st (s : State) : (writeDone s).st = .settle := rfl
@[simp] theorem writeDone_mode (s : State) : (writeDone s).mode = s.mode := rfl
@[simp] theorem writeDone_attempt (s : State) : (writeDone s).attempt = s.attempt := rfl
@[simp] theorem writeDone_settleCnt (s : State) : (writeDone s).settleCnt = BitVec.ofNat 32 (s.cfg.settleCycles - 1) := rfl
@[simp] theorem writeDone_toCnt (s : State) : (writeDone s).toCnt = s.toCnt := rfl
@[simp] theorem writeDone_cancelQ (s : State) : (writeDone s).cancelQ = s.cancelQ := rfl
@[simp] theorem writeDone_frame (s : State) : (writeDone s).frame = s.frame := rfl
@[simp] theorem writeDone_frameLen (s : State) : (writeDone s).frameLen = s.frameLen := rfl
@[simp] theorem writeDone_rawHum (s : State) : (writeDone s).rawHum = s.rawHum := rfl
@[simp] theorem writeDone_rawTemp (s : State) : (writeDone s).rawTemp = s.rawTemp := rfl
@[simp] theorem writeDone_hum (s : State) : (writeDone s).hum = s.hum := rfl
@[simp] theorem writeDone_temp (s : State) : (writeDone s).temp = s.temp := rfl
@[simp] theorem writeDone_done (s : State) : (writeDone s).done = s.done := rfl
@[simp] theorem writeDone_ovr (s : State) : (writeDone s).ovr = s.ovr := rfl
@[simp] theorem writeDone_valid (s : State) : (writeDone s).valid = s.valid := rfl
@[simp] theorem writeDone_errCode (s : State) : (writeDone s).errCode = s.errCode := rfl
@[simp] theorem writeDone_errCause (s : State) : (writeDone s).errCause = s.errCause := rfl
@[simp] theorem writeDone_errState (s : State) : (writeDone s).errState = s.errState := rfl
@[simp] theorem writeDone_crcEn (s : State) : (writeDone s).crcEn = s.crcEn := rfl
@[simp] theorem writeDone_ie (s : State) : (writeDone s).ie = s.ie := rfl
@[simp] theorem writeDone_maxRetry (s : State) : (writeDone s).maxRetry = s.maxRetry := rfl
@[simp] theorem writeDone_timeout (s : State) : (writeDone s).timeout = s.timeout := rfl
@[simp] theorem writeDone_hRdata (s : State) : (writeDone s).hRdata = s.hRdata := rfl
@[simp] theorem writeDone_hRvalid (s : State) : (writeDone s).hRvalid = s.hRvalid := rfl
@[simp] theorem writeDone_bound (s : State) : (writeDone s).bound = s.bound := rfl
@[simp] theorem writeDone_inp (s : State) : (writeDone s).inp = s.inp := rfl
@[simp] theorem writeDone_script (s : State) : (writeDone s).script = s.script := rfl
@[simp] theorem writeDone_draws (s : State) : (writeDone s).draws = s.draws := rfl

/-! ### readDone -/

@[simp] theorem readDone_cfg (n : Byte) (data : BitVec 56) (s : State) : (readDone n data s).cfg = s.cfg := rfl
@[simp] theorem readDone_st (n : Byte) (data : BitVec 56) (s : State) : (readDone n data s).st = .decode := rfl
@[simp] theorem readDone_mode (n : Byte) (data : BitVec 56) (s : State) : (readDone n data s).mode = s.mode := rfl
@[simp] theorem readDone_attempt (n : Byte) (data : BitVec 56) (s : State) : (readDone n data s).attempt = s.attempt := rfl
@[simp] theorem readDone_settleCnt (n : Byte) (data : BitVec 56) (s : State) : (readDone n data s).settleCnt = s.settleCnt := rfl
@[simp] theorem readDone_toCnt (n : Byte) (data : BitVec 56) (s : State) : (readDone n data s).toCnt = s.toCnt := rfl
@[simp] theorem readDone_cancelQ (n : Byte) (data : BitVec 56) (s : State) : (readDone n data s).cancelQ = s.cancelQ := rfl
@[simp] theorem readDone_frame (n : Byte) (data : BitVec 56) (s : State) : (readDone n data s).frame = captureFrame n data := rfl
@[simp] theorem readDone_frameLen (n : Byte) (data : BitVec 56) (s : State) : (readDone n data s).frameLen = n := rfl
@[simp] theorem readDone_rawHum (n : Byte) (data : BitVec 56) (s : State) : (readDone n data s).rawHum = s.rawHum := rfl
@[simp] theorem readDone_rawTemp (n : Byte) (data : BitVec 56) (s : State) : (readDone n data s).rawTemp = s.rawTemp := rfl
@[simp] theorem readDone_hum (n : Byte) (data : BitVec 56) (s : State) : (readDone n data s).hum = s.hum := rfl
@[simp] theorem readDone_temp (n : Byte) (data : BitVec 56) (s : State) : (readDone n data s).temp = s.temp := rfl
@[simp] theorem readDone_done (n : Byte) (data : BitVec 56) (s : State) : (readDone n data s).done = s.done := rfl
@[simp] theorem readDone_ovr (n : Byte) (data : BitVec 56) (s : State) : (readDone n data s).ovr = s.ovr := rfl
@[simp] theorem readDone_valid (n : Byte) (data : BitVec 56) (s : State) : (readDone n data s).valid = s.valid := rfl
@[simp] theorem readDone_errCode (n : Byte) (data : BitVec 56) (s : State) : (readDone n data s).errCode = s.errCode := rfl
@[simp] theorem readDone_errCause (n : Byte) (data : BitVec 56) (s : State) : (readDone n data s).errCause = s.errCause := rfl
@[simp] theorem readDone_errState (n : Byte) (data : BitVec 56) (s : State) : (readDone n data s).errState = s.errState := rfl
@[simp] theorem readDone_crcEn (n : Byte) (data : BitVec 56) (s : State) : (readDone n data s).crcEn = s.crcEn := rfl
@[simp] theorem readDone_ie (n : Byte) (data : BitVec 56) (s : State) : (readDone n data s).ie = s.ie := rfl
@[simp] theorem readDone_maxRetry (n : Byte) (data : BitVec 56) (s : State) : (readDone n data s).maxRetry = s.maxRetry := rfl
@[simp] theorem readDone_timeout (n : Byte) (data : BitVec 56) (s : State) : (readDone n data s).timeout = s.timeout := rfl
@[simp] theorem readDone_hRdata (n : Byte) (data : BitVec 56) (s : State) : (readDone n data s).hRdata = s.hRdata := rfl
@[simp] theorem readDone_hRvalid (n : Byte) (data : BitVec 56) (s : State) : (readDone n data s).hRvalid = s.hRvalid := rfl
@[simp] theorem readDone_bound (n : Byte) (data : BitVec 56) (s : State) : (readDone n data s).bound = s.bound := rfl
@[simp] theorem readDone_inp (n : Byte) (data : BitVec 56) (s : State) : (readDone n data s).inp = s.inp := rfl
@[simp] theorem readDone_script (n : Byte) (data : BitVec 56) (s : State) : (readDone n data s).script = s.script := rfl
@[simp] theorem readDone_draws (n : Byte) (data : BitVec 56) (s : State) : (readDone n data s).draws = s.draws := rfl

/-! ### resetEdge -/

@[simp] theorem resetEdge_cfg (s : State) : (resetEdge s).cfg = s.cfg := rfl
@[simp] theorem resetEdge_st (s : State) : (resetEdge s).st = .idle := rfl
@[simp] theorem resetEdge_mode (s : State) : (resetEdge s).mode = .cycle := rfl
@[simp] theorem resetEdge_attempt (s : State) : (resetEdge s).attempt = 0 := rfl
@[simp] theorem resetEdge_settleCnt (s : State) : (resetEdge s).settleCnt = 0 := rfl
@[simp] theorem resetEdge_toCnt (s : State) : (resetEdge s).toCnt = 0 := rfl
@[simp] theorem resetEdge_cancelQ (s : State) : (resetEdge s).cancelQ = false := rfl
@[simp] theorem resetEdge_frame (s : State) : (resetEdge s).frame = Frame.zero := rfl
@[simp] theorem resetEdge_frameLen (s : State) : (resetEdge s).frameLen = 0 := rfl
@[simp] theorem resetEdge_rawHum (s : State) : (resetEdge s).rawHum = 0 := rfl
@[simp] theorem resetEdge_rawTemp (s : State) : (resetEdge s).rawTemp = 0 := rfl
@[simp] theorem resetEdge_hum (s : State) : (resetEdge s).hum = 0 := rfl
@[simp] theorem resetEdge_temp (s : State) : (resetEdge s).temp = 0 := rfl
@[simp] theorem resetEdge_done (s : State) : (resetEdge s).done = false := rfl
@[simp] theorem resetEdge_ovr (s : State) : (resetEdge s).ovr = false := rfl
@[simp] theorem resetEdge_valid (s : State) : (resetEdge s).valid = false := rfl
@[simp] theorem resetEdge_errCode (s : State) : (resetEdge s).errCode = 0 := rfl
@[simp] theorem resetEdge_errCause (s : State) : (resetEdge s).errCause = 0 := rfl
@[simp] theorem resetEdge_errState (s : State) : (resetEdge s).errState = 0 := rfl
@[simp] theorem resetEdge_crcEn (s : State) : (resetEdge s).crcEn = false := rfl
@[simp] theorem resetEdge_ie (s : State) : (resetEdge s).ie = false := rfl
@[simp] theorem resetEdge_maxRetry (s : State) : (resetEdge s).maxRetry = 0 := rfl
@[simp] theorem resetEdge_timeout (s : State) : (resetEdge s).timeout = 0 := rfl
@[simp] theorem resetEdge_hRdata (s : State) : (resetEdge s).hRdata = 0 := rfl
@[simp] theorem resetEdge_hRvalid (s : State) : (resetEdge s).hRvalid = false := rfl
@[simp] theorem resetEdge_bound (s : State) : (resetEdge s).bound = s.bound := rfl
@[simp] theorem resetEdge_inp (s : State) : (resetEdge s).inp = s.inp := rfl
@[simp] theorem resetEdge_script (s : State) : (resetEdge s).script = s.script := rfl
@[simp] theorem resetEdge_draws (s : State) : (resetEdge s).draws = s.draws := rfl

end Sys2Proof.Machine
end

