-- ==== Sys2Proof/Laws/Ops.lean ====
section
/-! SUPPORT. For each shared operation one lemma that says everything it can do; later proofs cite these instead of
unfolding the operation. -/

namespace Sys2Proof.Machine

open Sys2Proof

/-! ### Host operations -/

theorem startCommand_idle {s : State} (h : s.st = .idle) :
    startCommand s = beginAttempt (beginCommand .cycle s) := by simp [startCommand, h]

theorem startCommand_busy {s : State} (h : s.st ≠ .idle) : startCommand s = { s with ovr := true } := by
  simp [startCommand, h]

theorem decodeCommand_idle {s : State} (h : s.st = .idle) :
    decodeCommand s = { beginCommand .decodeOnly s with st := .decode } := by simp [decodeCommand, h]

theorem decodeCommand_busy {s : State} (h : s.st ≠ .idle) : decodeCommand s = { s with ovr := true } := by
  simp [decodeCommand, h]

theorem writeConfig_busy {s : State} (d : Reg32) (h : s.st ≠ .idle) :
    writeConfig d s = { s with ie := ctrlIe d } := by simp [writeConfig, h]

theorem writeFrameLo_idle {s : State} (d : Reg32) (h : s.st = .idle) :
    writeFrameLo d s = { s with frame := s.frame.setLo d } := by simp [writeFrameLo, h]

theorem writeFrameLo_busy {s : State} (d : Reg32) (h : s.st ≠ .idle) : writeFrameLo d s = s := by
  simp [writeFrameLo, h]

theorem writeFrameHi_idle {s : State} (d : Reg32) (h : s.st = .idle) :
    writeFrameHi d s = { s with frame := s.frame.setHi d } := by simp [writeFrameHi, h]

theorem writeFrameHi_busy {s : State} (d : Reg32) (h : s.st ≠ .idle) : writeFrameHi d s = s := by
  simp [writeFrameHi, h]

theorem writeFrameLen_idle {s : State} (d : Reg32) (h : s.st = .idle) :
    writeFrameLen d s = { s with frameLen := d.extractLsb' 0 8 } := by simp [writeFrameLen, h]

theorem writeFrameLen_busy {s : State} (d : Reg32) (h : s.st ≠ .idle) : writeFrameLen d s = s := by
  simp [writeFrameLen, h]

theorem writeTimeout_idle {s : State} (d : Reg32) (h : s.st = .idle) :
    writeTimeout d s = { s with timeout := d } := by simp [writeTimeout, h]

theorem writeTimeout_busy {s : State} (d : Reg32) (h : s.st ≠ .idle) : writeTimeout d s = s := by
  simp [writeTimeout, h]

/-! ### Errors and completion -/

/-- Raising an error retries or finishes the command (40_sequencer.md R120). -/
theorem raise_cases (e : ProtocolError) (s : State) :
    (s.mode = .cycle ∧ s.attempt < s.maxRetry ∧
      raise e s = beginAttempt { recordError e s with attempt := s.attempt + 1 }) ∨
    (¬(s.mode = .cycle ∧ s.attempt < s.maxRetry) ∧
      raise e s = { recordError e s with st := .idle, done := true }) := by
  by_cases h : s.mode = .cycle ∧ s.attempt < s.maxRetry
  · exact .inl ⟨h.1, h.2, by simp [raise, retryOrFinish, h]⟩
  · exact .inr ⟨h, by simp [raise, retryOrFinish, h]⟩

/-- A retry is left: the next attempt begins. -/
theorem raise_retry (e : ProtocolError) {s : State} (h : s.mode = .cycle ∧ s.attempt < s.maxRetry) :
    raise e s = beginAttempt { recordError e s with attempt := s.attempt + 1 } := by simp [raise, retryOrFinish, h]

/-- No retry is left, or the command is DECODE_ONLY: the command ends. -/
theorem raise_finish (e : ProtocolError) {s : State} (h : ¬(s.mode = .cycle ∧ s.attempt < s.maxRetry)) :
    raise e s = { recordError e s with st := .idle, done := true } := by simp [raise, retryOrFinish, h]

/-- Where an error leads: a new attempt of a CYCLE command with a retry left, else IDLE (40_sequencer.md R120, R126). -/
theorem raise_st_eq (e : ProtocolError) (s : State) :
    (raise e s).st = if s.mode = .cycle ∧ s.attempt < s.maxRetry then .bindReq else .idle := by
  by_cases h : s.mode = .cycle ∧ s.attempt < s.maxRetry
  · rw [raise_retry _ h, if_pos h]; rfl
  · rw [raise_finish _ h, if_neg h]

/-- An error touches no cancel: only the timeout before it does (40_sequencer.md R116). -/
@[simp] theorem raise_cancelQ (e : ProtocolError) (s : State) : (raise e s).cancelQ = s.cancelQ := by
  by_cases h : s.mode = .cycle ∧ s.attempt < s.maxRetry
  · rw [raise_retry _ h]; rfl
  · rw [raise_finish _ h]; rfl

/-- After an error the block is in a new attempt or in IDLE (60_exceptions.md R208). -/
theorem raise_st (e : ProtocolError) (s : State) : (raise e s).st = .bindReq ∨ (raise e s).st = .idle := by
  rcases raise_cases e s with ⟨-, -, h⟩ | ⟨-, h⟩ <;> simp [h]

/-- A timeout is an error of the state with `cancel_q` set if the request was accepted (40_sequencer.md R116). -/
theorem takeTimeout_eq (s : State) :
    takeTimeout s = raise .timeout { s with cancelQ := s.cancelQ || accepted s } := by
  cases h : accepted s <;> cases s <;> simp_all [takeTimeout]

/-! ### The states of an attempt -/

theorem countDown_eq (s : State) :
    countDown s = { s with toCnt := if 1 < s.toCnt then s.toCnt - 1 else s.toCnt } := by
  unfold countDown; split <;> rfl

/-- A REQ state: a timeout, or a count with or without acceptance (40_sequencer.md R115). -/
theorem requestEdge_cases (nxt : St) (s : State) :
    (s.toCnt = 1 ∧ requestEdge nxt s = takeTimeout s) ∨
    (s.toCnt ≠ 1 ∧ s.inp.bReqReady = true ∧ requestEdge nxt s = { countDown s with st := nxt }) ∨
    (s.toCnt ≠ 1 ∧ s.inp.bReqReady = false ∧ requestEdge nxt s = countDown s) := by
  by_cases h : s.toCnt = 1
  · exact .inl ⟨h, if_pos h⟩
  · cases hr : s.inp.bReqReady
    · exact .inr (.inr ⟨h, rfl, by rw [requestEdge, if_neg h, hr]; rfl⟩)
    · exact .inr (.inl ⟨h, rfl, by rw [requestEdge, if_neg h, hr]; rfl⟩)

/-- A RSP state without a response: a timeout or a count (40_sequencer.md R115). -/
theorem waitEdge_cases (s : State) :
    (s.toCnt = 1 ∧ waitEdge s = takeTimeout s) ∨ (s.toCnt ≠ 1 ∧ waitEdge s = countDown s) := by
  by_cases h : s.toCnt = 1
  · exact .inl ⟨h, if_pos h⟩
  · exact .inr ⟨h, if_neg h⟩

/-- A response in a RSP state is an error or the state's success (40_sequencer.md R107, R109, R110, R113); elsewhere it is
nothing (R118). -/
theorem respond_cases (err : Bool) (n : Byte) (data : BitVec 56) (s : State) :
    (s.st.isRsp = true ∧ err = true ∧ respond err n data s = raise .transport s) ∨
    (s.st = .bindRsp ∧ err = false ∧ respond err n data s = bindDone s) ∨
    (s.st = .writeRsp ∧ err = false ∧ respond err n data s = writeDone s) ∨
    (s.st = .readRsp ∧ err = false ∧ respond err n data s = readDone n data s) ∨
    (s.st.isRsp = false ∧ respond err n data s = s) := by
  cases h : s.st <;> cases err <;> simp [respond, h, St.isRsp]

theorem settleEdge_cases (s : State) :
    (s.settleCnt = 0 ∧ settleEdge s = { s with st := .readReq, toCnt := s.timeout }) ∨
    (s.settleCnt ≠ 0 ∧ settleEdge s = { s with settleCnt := s.settleCnt - 1 }) := by
  by_cases h : s.settleCnt = 0
  · exact .inl ⟨h, if_pos h⟩
  · exact .inr ⟨h, if_neg h⟩

theorem decodeEdge_cases (s : State) :
    (∃ h t hb tb, decodeFrame s.cfg s.frame s.frameLen s.crcEn = .ok h t hb tb ∧
      decodeEdge s = complete h t hb tb s) ∨
    (∃ e, decodeFrame s.cfg s.frame s.frameLen s.crcEn = .err e ∧ decodeEdge s = raise e s) := by
  cases h : decodeFrame s.cfg s.frame s.frameLen s.crcEn with
  | ok a b c d => exact .inl ⟨a, b, c, d, rfl, by simp [decodeEdge, h]⟩
  | err e => exact .inr ⟨e, rfl, by simp [decodeEdge, h]⟩

/-- What the decoder can answer (41_decoder.md R150): converted fields, or one of its three errors. -/
theorem decodeFrame_cases (p : Params) (f : Frame) (len : Byte) (crcEn : Bool) :
    (decodeFrame p f len crcEn =
      .ok (rawHumidity f) (rawTemperature f) (hum32 (rawHumidity f)) (temp32 p.convEval (rawTemperature f))) ∨
    (∃ e, decodeFrame p f len crcEn = .err e ∧ (e = .length ∨ e = .busy ∨ e = .checksum)) := by
  unfold decodeFrame
  split
  · exact .inr ⟨_, rfl, by simp⟩
  · split
    · exact .inr ⟨_, rfl, by simp⟩
    · split
      · exact .inr ⟨_, rfl, by simp⟩
      · exact .inl rfl

/-! ### The edge -/

/-- Every operation answers a next state: nothing on the ports traps (30_encoding.md R91, 60_exceptions.md R200). -/
theorem exec_next (i : Instr) (s : State) : ∃ t, exec i s = .next t := by
  cases i <;> exact ⟨_, rfl⟩

theorem loadInputs_cons {s : State} {x : Inputs} {rest : List Inputs} (h : s.script = x :: rest) :
    loadInputs s = { s with inp := x, script := rest } := by simp [loadInputs, h]

theorem loadInputs_nil {s : State} (h : s.script = []) :
    loadInputs s = { s with inp := Config.freeInputs s.draws, draws := s.draws + 1 } := by simp [loadInputs, h]

/-- Whatever the environment presents, loading it changes no register. -/
theorem loadInputs_eq (s : State) :
    ∃ x rest n, loadInputs s = { s with inp := x, script := rest, draws := n } := by
  cases h : s.script with
  | nil => exact ⟨_, s.script, _, loadInputs_nil h⟩
  | cons x rest => exact ⟨x, rest, s.draws, loadInputs_cons h⟩

theorem busInstr_bindReq {s : State} (h : s.st = .bindReq) : busInstr s = some .bind := by
  rw [busInstr, h]; rfl

theorem busInstr_writeReq {s : State} (h : s.st = .writeReq) : busInstr s = some .writeTrigger := by
  rw [busInstr, h]; rfl

theorem busInstr_readReq {s : State} (h : s.st = .readReq) : busInstr s = some .readFrame := by
  rw [busInstr, h]; rfl

/-- Outside the REQ states the bus operation is the response shown in a RSP state, if any. -/
theorem busInstr_noReq {s : State} (h : s.st.isReq = false) :
    busInstr s =
      if s.st.isRsp && s.inp.bRspValid then some (decodeRsp (s.st == .readRsp) (Inputs.rspWord s.inp)) else none := by
  cases hs : s.st <;> simp_all [busInstr, St.request, St.isReq]

theorem edge_rst {s : State} (h : s.inp.rst = true) : edge s = .next (resetEdge s) := by simp [edge, h]

theorem edge_run {s h : State} (hr : s.inp.rst = false) (he : exec (hostInstr s) { s with cancelQ := false } = .next h) :
    edge s = sequencerEdge s h := by simp [edge, hr, he]

end Sys2Proof.Machine
end

