-- ==== Sys2Proof/Laws/PerInstr.lean ====
section
/-! SUPPORT. RowMatch: the word of every well-formed instruction matches a row of spec/opcode_table.json under that
instruction's mnemonic. The masks and matches are the table's own numbers. -/

namespace Sys2Proof.Laws.RowMatch

open Sys2Proof

/-- The HOSTOP rows of an instruction's mnemonic, as (mask, match). -/
def hostRows : Instr → List (HostWord × HostWord)
  | .start _ _ _ => [(0x2FC00000001, 0x20000000001)]
  | .decode _ _ _ => [(0x2FC00000003, 0x20000000002)]
  | .ctrlCfg _ _ _ => [(0x2FC00000003, 0x20000000000)]
  | .statusW1c _ _ _ => [(0x2FC00000000, 0x20400000000)]
  | .frameLoWr _ _ _ => [(0x2FC00000000, 0x21800000000)]
  | .frameHiWr _ _ _ => [(0x2FC00000000, 0x21C00000000)]
  | .frameLenWr _ _ _ => [(0x2FC00000000, 0x22000000000)]
  | .timeoutWr _ _ _ => [(0x2FC00000000, 0x22800000000)]
  | .regWrIgnored _ _ _ =>
    [(0x2F800000000, 0x20800000000), (0x2F800000000, 0x21000000000), (0x2FC00000000, 0x22400000000),
     (0x2FC00000000, 0x22C00000000), (0x2F000000000, 0x23000000000), (0x2C000000000, 0x24000000000),
     (0x28000000000, 0x28000000000)]
  | .regRd _ _ => [(0x10000000000, 0x10000000000)]
  | .nop _ _ => [(0x30000000000, 0x00000000000)]
  | .bind | .writeTrigger | .readFrame | .rspOk _ _ | .rspErr _ _ | .rspData _ _ => []

/-- The one BUSREQ word of an instruction's row: its mask is all ones. -/
def reqRow : Instr → Option ReqWord
  | .bind => some 0x01C0000000
  | .writeTrigger => some 0x09C30033AC
  | .readFrame => some 0x11C7000000
  | .start _ _ _ | .decode _ _ _ | .ctrlCfg _ _ _ | .statusW1c _ _ _ | .frameLoWr _ _ _ | .frameHiWr _ _ _ => none
  | .frameLenWr _ _ _ | .timeoutWr _ _ _ | .regWrIgnored _ _ _ | .regRd _ _ | .nop _ _ => none
  | .rspOk _ _ | .rspErr _ _ | .rspData _ _ => none

/-- The BUSRSP row of an instruction, as (mask, match). -/
def rspRow : Instr → Option (RspWord × RspWord)
  | .rspOk _ _ | .rspData _ _ => some (0x10000000000000000, 0x00000000000000000)
  | .rspErr _ _ => some (0x10000000000000000, 0x10000000000000000)
  | .start _ _ _ | .decode _ _ _ | .ctrlCfg _ _ _ | .statusW1c _ _ _ | .frameLoWr _ _ _ | .frameHiWr _ _ _ => none
  | .frameLenWr _ _ _ | .timeoutWr _ _ _ | .regWrIgnored _ _ _ | .regRd _ _ | .nop _ _ => none
  | .bind | .writeTrigger | .readFrame => none

/-- The word of a well-formed instruction matches a row of its mnemonic. -/
def Statement (i : Instr) : Prop :=
  i.WellFormed →
    match encode i with
    | .hostop w => ∃ r ∈ hostRows i, w &&& r.1 = r.2
    | .busreq w => reqRow i = some w
    | .busrsp w => ∃ r, rspRow i = some r ∧ w &&& r.1 = r.2

/-- A mask acts field by field. -/
theorem hostWord_and (w r w' r' : Bool) (a a' : Byte) (d d' : Reg32) :
    hostWord w r a d &&& hostWord w' r' a' d' = hostWord (w && w') (r && r') (a &&& a') (d &&& d') := by
  apply BitVec.eq_of_getLsbD_eq
  intro i _
  simp only [hostWord, BitVec.getLsbD_and, BitVec.getLsbD_append, BitVec.getLsbD_ofBool]
  grind

/-- A mask of A and of some of D, on a word with W = 1. -/
theorem hostRow_of_fields {m v : HostWord} {ma va : Byte} {md vd : Reg32} {rd : Bool} {a : Byte} {d : Reg32}
    (hm : m = hostWord true false ma md) (hv : v = hostWord true false va vd) (ha : a &&& ma = va)
    (hd : d &&& md = vd) : hostWord true rd a d &&& m = v := by
  rw [hm, hv, hostWord_and, ha, hd, Bool.and_false, Bool.and_true]

theorem offset_and (i : BitVec 6) (lo : BitVec 2) : offsetOf i lo &&& 0xFC = offsetOf i 0 := by
  revert i lo; decide

theorem and_one {d : Reg32} (h : d.getLsbD 0 = true) : d &&& 0x1 = 0x1 := by
  apply BitVec.eq_of_getLsbD_eq
  intro k hk
  rcases k with _ | k
  · simpa using h
  · simp

theorem and_three {d : Reg32} {b : Bool} (h0 : d.getLsbD 0 = false) (h1 : d.getLsbD 1 = b) :
    d &&& 0x3 = (BitVec.ofBool b).setWidth 32 <<< 1 := by
  apply BitVec.eq_of_getLsbD_eq
  intro k hk
  rcases k with _ | _ | k
  · simpa using h0
  · simpa using h1
  · have h3 : ∀ k, k < 30 → (0x3 : Reg32).getLsbD (k + 2) = false := by decide
    rw [BitVec.getLsbD_and]
    exact (congrArg (d.getLsbD (k + 2) && ·) (h3 k (by omega))).trans (by simp)

theorem start (rd : Bool) (lo : BitVec 2) (d : Reg32) : Statement (.start rd lo d) := fun h =>
  ⟨_, .head _, hostRow_of_fields (ma := 0xFC) (md := 0x1) (va := 0) (vd := 0x1) rfl rfl (offset_and 0 lo) (and_one h)⟩

theorem decode (rd : Bool) (lo : BitVec 2) (d : Reg32) : Statement (.decode rd lo d) := fun h => by
  obtain ⟨h0, h1⟩ : d.getLsbD 0 = false ∧ d.getLsbD 1 = true := by simpa [Instr.WellFormed, Instr.wf] using h
  exact ⟨_, .head _, hostRow_of_fields (ma := 0xFC) (md := 0x3) (va := 0) (vd := 0x2) rfl rfl (offset_and 0 lo)
    (and_three h0 h1)⟩

theorem ctrlCfg (rd : Bool) (lo : BitVec 2) (d : Reg32) : Statement (.ctrlCfg rd lo d) := fun h => by
  obtain ⟨h0, h1⟩ : d.getLsbD 0 = false ∧ d.getLsbD 1 = false := by simpa [Instr.WellFormed, Instr.wf] using h
  exact ⟨_, .head _, hostRow_of_fields (ma := 0xFC) (md := 0x3) (va := 0) (vd := 0x0) rfl rfl (offset_and 0 lo)
    (and_three h0 h1)⟩

theorem statusW1c (rd : Bool) (lo : BitVec 2) (d : Reg32) : Statement (.statusW1c rd lo d) := fun _ =>
  ⟨_, .head _, hostRow_of_fields (ma := 0xFC) (md := 0) (va := 0x04) (vd := 0) rfl rfl (offset_and 1 lo) BitVec.and_zero⟩

theorem frameLoWr (rd : Bool) (lo : BitVec 2) (d : Reg32) : Statement (.frameLoWr rd lo d) := fun _ =>
  ⟨_, .head _, hostRow_of_fields (ma := 0xFC) (md := 0) (va := 0x18) (vd := 0) rfl rfl (offset_and 6 lo) BitVec.and_zero⟩

theorem frameHiWr (rd : Bool) (lo : BitVec 2) (d : Reg32) : Statement (.frameHiWr rd lo d) := fun _ =>
  ⟨_, .head _, hostRow_of_fields (ma := 0xFC) (md := 0) (va := 0x1C) (vd := 0) rfl rfl (offset_and 7 lo) BitVec.and_zero⟩

theorem frameLenWr (rd : Bool) (lo : BitVec 2) (d : Reg32) : Statement (.frameLenWr rd lo d) := fun _ =>
  ⟨_, .head _, hostRow_of_fields (ma := 0xFC) (md := 0) (va := 0x20) (vd := 0) rfl rfl (offset_and 8 lo) BitVec.and_zero⟩

theorem timeoutWr (rd : Bool) (lo : BitVec 2) (d : Reg32) : Statement (.timeoutWr rd lo d) := fun _ =>
  ⟨_, .head _, hostRow_of_fields (ma := 0xFC) (md := 0) (va := 0x28) (vd := 0) rfl rfl (offset_and 10 lo) BitVec.and_zero⟩

/-- The seven address ranges of REG_WR_IGNORED, as masks of A. -/
theorem ignored_ranges (a : Byte) (h : isIgnoredIndex (wordIndex a) = true) :
    a &&& 0xF8 = 0x08 ∨ a &&& 0xF8 = 0x10 ∨ a &&& 0xFC = 0x24 ∨ a &&& 0xFC = 0x2C ∨ a &&& 0xF0 = 0x30 ∨
      a &&& 0xC0 = 0x40 ∨ a &&& 0x80 = 0x80 := by
  revert a; decide

theorem regWrIgnored (rd : Bool) (a : Byte) (d : Reg32) : Statement (.regWrIgnored rd a d) := fun h => by
  have row {ma va : Byte} (ha : a &&& ma = va) :
      hostWord true rd a d &&& hostWord true false ma 0 = hostWord true false va 0 :=
    hostRow_of_fields rfl rfl ha BitVec.and_zero
  rcases ignored_ranges a h with h | h | h | h | h | h | h
  · exact ⟨(0x2F800000000, 0x20800000000), by simp [hostRows], row h⟩
  · exact ⟨(0x2F800000000, 0x21000000000), by simp [hostRows], row h⟩
  · exact ⟨(0x2FC00000000, 0x22400000000), by simp [hostRows], row h⟩
  · exact ⟨(0x2FC00000000, 0x22C00000000), by simp [hostRows], row h⟩
  · exact ⟨(0x2F000000000, 0x23000000000), by simp [hostRows], row h⟩
  · exact ⟨(0x2C000000000, 0x24000000000), by simp [hostRows], row h⟩
  · exact ⟨(0x28000000000, 0x28000000000), by simp [hostRows], row h⟩

theorem regRd (a : Byte) (d : Reg32) : Statement (.regRd a d) := fun _ =>
  ⟨_, .head _, by
    show hostWord false true a d &&& hostWord false true 0 0 = hostWord false true 0 0
    rw [hostWord_and]; exact congrArg₂ (hostWord _ _) BitVec.and_zero BitVec.and_zero⟩

theorem nop (a : Byte) (d : Reg32) : Statement (.nop a d) := fun _ =>
  ⟨_, .head _, by
    show hostWord false false a d &&& hostWord true true 0 0 = hostWord false false 0 0
    rw [hostWord_and]; exact congrArg₂ (hostWord _ _) BitVec.and_zero BitVec.and_zero⟩

theorem bind : Statement .bind := fun _ => rfl

theorem writeTrigger : Statement .writeTrigger := fun _ => rfl

theorem readFrame : Statement .readFrame := fun _ => rfl

/-- The rows of BUSRSP fix E alone. -/
theorem rspWord_and (e : Bool) (n : Byte) (data : BitVec 56) :
    rspWord e n data &&& rspWord true 0 0 = rspWord e 0 0 := by
  apply BitVec.eq_of_getLsbD_eq
  intro i _
  simp only [rspWord, BitVec.getLsbD_and, BitVec.getLsbD_append, BitVec.getLsbD_ofBool]
  grind

theorem rspOk (n : Byte) (data : BitVec 56) : Statement (.rspOk n data) := fun _ =>
  ⟨_, rfl, rspWord_and false n data⟩

theorem rspErr (n : Byte) (data : BitVec 56) : Statement (.rspErr n data) := fun _ =>
  ⟨_, rfl, rspWord_and true n data⟩

theorem rspData (n : Byte) (data : BitVec 56) : Statement (.rspData n data) := fun _ =>
  ⟨_, rfl, rspWord_and false n data⟩

end Sys2Proof.Laws.RowMatch
end

