-- ==== Sys2Proof/Laws/Step.lean ====
section
/-! SUPPORT. Inversion of the step: once, what an edge can do, so that statements about all edges are case analyses over
these and never unfold `step`. -/

namespace Sys2Proof.Machine

open Sys2Proof

/-- The registers a host operation can write while a command runs, put over a state. -/
def withHostFlags (q : State) (ie ovr done : Bool) (rdata : Reg32) (rvalid : Bool) : State :=
  { q with ie := ie, ovr := ovr, done := done, hRdata := rdata, hRvalid := rvalid }

/-- What the state rules of 40_sequencer.md R105 to R116 do at an edge from a state `p` that holds the cycle's inputs, one
constructor per way. -/
inductive SeqRule (p : State) : State → Prop where
  | stuck (k : Fin 7) : p.st = .unused k → SeqRule p p
  | waitRequest : p.st.isReq = true → p.inp.bReqReady = false → p.toCnt ≠ 1 → SeqRule p (countDown p)
  | waitResponse : p.st.isRsp = true → p.inp.bRspValid = false → p.toCnt ≠ 1 → SeqRule p (countDown p)
  | acceptBind : p.st = .bindReq → p.inp.bReqReady = true → p.toCnt ≠ 1 →
      SeqRule p { countDown p with st := .bindRsp }
  | acceptWrite : p.st = .writeReq → p.inp.bReqReady = true → p.toCnt ≠ 1 →
      SeqRule p { countDown p with st := .writeRsp }
  | acceptRead : p.st = .readReq → p.inp.bReqReady = true → p.toCnt ≠ 1 →
      SeqRule p { countDown p with st := .readRsp }
  | timeout : p.st.isReq = true ∨ p.st.isRsp = true ∧ p.inp.bRspValid = false → p.toCnt = 1 →
      SeqRule p (raise .timeout { p with cancelQ := p.cancelQ || accepted p })
  | errorResponse : p.st.isRsp = true → p.inp.bRspValid = true → p.inp.bRspErr = true →
      SeqRule p (raise .transport p)
  | bindDone : p.st = .bindRsp → p.inp.bRspValid = true → p.inp.bRspErr = false → SeqRule p (bindDone p)
  | writeDone : p.st = .writeRsp → p.inp.bRspValid = true → p.inp.bRspErr = false → SeqRule p (writeDone p)
  | readDone : p.st = .readRsp → p.inp.bRspValid = true → p.inp.bRspErr = false →
      SeqRule p (readDone p.inp.bRspCount p.inp.bRspRdata p)
  | settled : p.st = .settle → p.settleCnt = 0 → SeqRule p { p with st := .readReq, toCnt := p.timeout }
  | settling : p.st = .settle → p.settleCnt ≠ 0 → SeqRule p { p with settleCnt := p.settleCnt - 1 }
  | decoded (h t : BitVec 20) (hb tb : Reg32) : p.st = .decode →
      decodeFrame p.cfg p.frame p.frameLen p.crcEn = .ok h t hb tb → SeqRule p (complete h t hb tb p)
  | decodeError (e : ProtocolError) : p.st = .decode →
      decodeFrame p.cfg p.frame p.frameLen p.crcEn = .err e → SeqRule p (raise e p)

/-- Outside IDLE a host operation writes nothing but its flags and the read port. -/
theorem hostInstr_busy {s : State} (hs : s.st ≠ .idle) (p : State) :
    ∃ ie ovr done rdata rvalid, exec (hostInstr p) s = .next (withHostFlags s ie ovr done rdata rvalid) := by
  have key : ∀ rd a, (hostRead rd a s).st ≠ .idle := by simpa using hs
  have key2 : ∀ d rd a, (writeConfig d (hostRead rd a s)).st ≠ .idle := by simpa using hs
  rw [hostInstr_eq]
  unfold decodeHostFields
  split
  · exact ⟨_, _, _, _, _, rfl⟩
  · exact ⟨_, _, _, _, _, rfl⟩
  · split
    · split
      · simp only [exec, execStart]
        rw [startCommand_busy (key2 _ _ _), writeConfig_busy _ (key _ _)]
        exact ⟨_, _, _, _, _, rfl⟩
      · simp only [exec, execDecode]
        rw [decodeCommand_busy (key2 _ _ _), writeConfig_busy _ (key _ _)]
        exact ⟨_, _, _, _, _, rfl⟩
      · simp only [exec, execCtrlCfg]
        rw [writeConfig_busy _ (key _ _)]
        exact ⟨_, _, _, _, _, rfl⟩
    · exact ⟨_, _, _, _, _, rfl⟩
    · simp only [exec, execFrameLoWr]
      rw [writeFrameLo_busy _ (key _ _)]
      exact ⟨_, _, _, _, _, rfl⟩
    · simp only [exec, execFrameHiWr]
      rw [writeFrameHi_busy _ (key _ _)]
      exact ⟨_, _, _, _, _, rfl⟩
    · simp only [exec, execFrameLenWr]
      rw [writeFrameLen_busy _ (key _ _)]
      exact ⟨_, _, _, _, _, rfl⟩
    · simp only [exec, execTimeoutWr]
      rw [writeTimeout_busy _ (key _ _)]
      exact ⟨_, _, _, _, _, rfl⟩
    all_goals exact ⟨_, _, _, _, _, rfl⟩

/-- An edge with `rst` = 0 in IDLE is its host operation. -/
theorem sequencerEdge_idle {p : State} (h : p.st = .idle) (c : State) : sequencerEdge p c = .next c := by
  simp [sequencerEdge, busInstr_noReq (s := p) (by simp [h, St.isReq]), h, St.isRsp, quietEdge]

/-- The REQ states, as far as the rule goes. -/
theorem requestEdge_rule {p : State} {nxt : St}
    (h : p.st = .bindReq ∧ nxt = .bindRsp ∨ p.st = .writeReq ∧ nxt = .writeRsp ∨ p.st = .readReq ∧ nxt = .readRsp) :
    SeqRule p (requestEdge nxt p) := by
  have hq : p.st.isReq = true := by rcases h with ⟨h, -⟩ | ⟨h, -⟩ | ⟨h, -⟩ <;> simp [h, St.isReq]
  rcases requestEdge_cases nxt p with ⟨h1, e⟩ | ⟨h1, h2, e⟩ | ⟨h1, h2, e⟩
  · rw [e, takeTimeout_eq]; exact .timeout (.inl hq) h1
  · rw [e]
    rcases h with ⟨h, rfl⟩ | ⟨h, rfl⟩ | ⟨h, rfl⟩
    · exact .acceptBind h h2 h1
    · exact .acceptWrite h h2 h1
    · exact .acceptRead h h2 h1
  · rw [e]; exact .waitRequest hq h2 h1

/-- Outside IDLE the sequencer follows one of the rules. -/
theorem sequencerEdge_rule {p : State} (hs : p.st ≠ .idle) :
    ∃ q, sequencerEdge p p = .next q ∧ SeqRule p q := by
  by_cases hq : p.st.isReq = true
  · cases hst : p.st <;> simp [hst, St.isReq] at hq
    · refine ⟨_, by rw [sequencerEdge, busInstr_bindReq hst]; rfl, ?_⟩
      rw [if_pos hst]; exact requestEdge_rule (.inl ⟨hst, rfl⟩)
    · refine ⟨_, by rw [sequencerEdge, busInstr_writeReq hst]; rfl, ?_⟩
      rw [if_pos hst]; exact requestEdge_rule (.inr (.inl ⟨hst, rfl⟩))
    · refine ⟨_, by rw [sequencerEdge, busInstr_readReq hst]; rfl, ?_⟩
      rw [if_pos hst]; exact requestEdge_rule (.inr (.inr ⟨hst, rfl⟩))
  · have hq : p.st.isReq = false := by simpa using hq
    by_cases hr : p.st.isRsp = true
    · cases hv : p.inp.bRspValid
      · refine ⟨waitEdge p, ?_, ?_⟩
        · rw [sequencerEdge, busInstr_noReq hq, hv]
          cases hst : p.st <;> simp_all [quietEdge, St.isRsp]
        · rcases waitEdge_cases p with ⟨h1, e⟩ | ⟨h1, e⟩
          · rw [e, takeTimeout_eq]; exact .timeout (.inr ⟨hr, hv⟩) h1
          · rw [e]; exact .waitResponse hr hv h1
      · have hb : sequencerEdge p p = .next (respond p.inp.bRspErr p.inp.bRspCount p.inp.bRspRdata p) := by
          rw [sequencerEdge, busInstr_noReq hq, hv, hr]
          simp only [Bool.and_self, ↓reduceIte, Inputs.rspWord, decodeRsp_rspWord]
          cases he : p.inp.bRspErr <;> cases hx : p.st == .readRsp <;> rfl
        refine ⟨_, hb, ?_⟩
        rcases respond_cases p.inp.bRspErr p.inp.bRspCount p.inp.bRspRdata p with
          ⟨-, he, e⟩ | ⟨h1, he, e⟩ | ⟨h1, he, e⟩ | ⟨h1, he, e⟩ | ⟨h1, -⟩
        · rw [e]; exact .errorResponse hr hv he
        · rw [e]; exact .bindDone h1 hv he
        · rw [e]; exact .writeDone h1 hv he
        · rw [e]; exact .readDone h1 hv he
        · simp [h1] at hr
    · have hr : p.st.isRsp = false := by simpa using hr
      have hb : sequencerEdge p p = .next (quietEdge p.st p) := by
        rw [sequencerEdge, busInstr_noReq hq, hr]; rfl
      refine ⟨_, hb, ?_⟩
      cases hst : p.st <;> simp [hst, St.isReq, St.isRsp] at hq hr hs
      · rcases settleEdge_cases p with ⟨h1, e⟩ | ⟨h1, e⟩
        · simp only [quietEdge]; rw [e]; exact .settled hst h1
        · simp only [quietEdge]; rw [e]; exact .settling hst h1
      · rcases decodeEdge_cases p with ⟨a, b, c, d, h1, e⟩ | ⟨r, h1, e⟩
        · simp only [quietEdge]; rw [e]; exact .decoded a b c d hst h1
        · simp only [quietEdge]; rw [e]; exact .decodeError r hst h1
      · exact .stuck _ hst

end Sys2Proof.Machine
end

