-- ==== Sys2Proof/Laws/Transport.lean ====
section
/-! SUPPORT. The transport's account: one lemma per operation, and the duty of a transport whose account agrees. -/

namespace Sys2Proof.Machine

open Sys2Proof

@[simp] theorem Account.afterCancel_false (a : Account) : a.afterCancel false = a := rfl

@[simp] theorem Account.afterCancel_true (a : Account) : a.afterCancel true = { a with last := none } := rfl

@[simp] theorem Account.answer_single (o : Option Request) :
    ({ last := o, older := [] } : Account).answer = Account.clear := by cases o <;> rfl

@[simp] theorem State.outputs_bCancel (s : State) : s.outputs.bCancel = s.cancelQ := rfl

/-- The ports carry the request that `st` presents. -/
@[simp] theorem State.outputs_request (s : State) : s.outputs.request = s.st.request := by
  rcases s with ⟨_, st⟩; cases st <;> rfl

/-- One cycle from an agreeing account: what `st` awaits, without what the cycle answers, and with what it accepts. -/
theorem Account.cycle_of_agrees {s : State} {a : Account} (h : a.Agrees s) (x : Inputs) :
    a.cycle s.outputs x =
      match s.st.request with
      | some r => if x.bReqReady then { last := some r, older := [] } else Account.clear
      | none => if x.bRspValid then Account.clear else { last := s.st.awaited, older := [] } := by
  have h : a.afterCancel s.cancelQ = { last := s.st.awaited, older := [] } := h
  simp only [Account.cycle, State.outputs_bCancel, State.outputs_request, h, Account.answer_single]
  cases s.st <;> cases x.bRspValid <;> rfl

/-- An agreeing account allows a response exactly in the RSP states. -/
theorem Account.keepsDuty_of_agrees {s : State} {a : Account} (h : a.Agrees s) (x : Inputs) :
    a.KeepsDuty s.outputs x ↔ (x.bRspValid = true → s.st.isRsp = true) := by
  have h : a.afterCancel s.cancelQ = { last := s.st.awaited, older := [] } := h
  simp only [Account.KeepsDuty, State.outputs_bCancel, h]
  cases s.st <;> simp [Account.clear, St.awaited, St.request, St.isRsp]

end Sys2Proof.Machine
end

