-- ==== Sys2Proof/Tests/Slice0.lean ====
section
/-! SUPPORT. The model's own tests: well-formedness smoke, words written out from the spec's encodings, one-step tests
whose expected values are those of 95_test_vectors.md, and one witness for the hypotheses of every statement. -/

namespace Sys2Proof.Tests

open Sys2Proof Sys2Proof.Machine Sys2Proof.Safety

/-! ### Helpers -/

/-- Does a step answer a next state with this property? -/
def answers (o : Host.Outcome State Fault Refusal) (p : State → Bool) : Bool :=
  match o with
  | .next t => p t
  | .fault _ | .refused _ => false

/-- A state in the given `st`, mid-command, with TIMEOUT = 5 and one retry left. -/
def mid (st : St) : State :=
  { State.reset with st := st, attempt := 1, maxRetry := 2, timeout := 5, toCnt := 5, settleCnt := 2 }

/-- The same state with the given cycles to come. -/
def scripted (s : State) (xs : List Inputs) : State := { s with script := xs }

/-- The next cycle presents a HOSTOP word and nothing else. -/
def onHost (w : HostWord) (s : State) : State := scripted s [Inputs.ofHostWord w]

/-- The next cycle presents a BUSRSP word and nothing else. -/
def onBus (w : RspWord) (s : State) : State := scripted s [Inputs.ofRspWord w]

/-- The next cycle: the transport is ready. -/
def onReady (s : State) : State := scripted s [Inputs.ready]

/-- The next cycle: nobody does anything. -/
def onIdle (s : State) : State := scripted s [Inputs.idle]

/-- A frame of seven bytes. -/
def bytes (b0 b1 b2 b3 b4 b5 b6 : Byte) : Frame := { b0, b1, b2, b3, b4, b5, b6 }

/-- A frame that passes every check but the checksum (95_test_vectors.md 1.1). -/
def goodFrame : Frame := bytes 0x00 0x19 0x99 0x9A 0x66 0x66 0x00

/-! ### Well-formedness: one ill-formed term for each check -/

theorem test_wf_start_refused : ¬ (Instr.start false 0 0x2).WellFormed := by decide
theorem test_wf_decode_refused_by_start_bit : ¬ (Instr.decode false 0 0x3).WellFormed := by decide
theorem test_wf_decode_refused_without_its_bit : ¬ (Instr.decode false 0 0x0).WellFormed := by decide
theorem test_wf_ctrlCfg_refused_by_start_bit : ¬ (Instr.ctrlCfg false 0 0x1).WellFormed := by decide
theorem test_wf_ctrlCfg_refused_by_decode_bit : ¬ (Instr.ctrlCfg false 0 0x2).WellFormed := by decide
theorem test_wf_regWrIgnored_refused_on_status : ¬ (Instr.regWrIgnored false 0x04 0).WellFormed := by decide
theorem test_wf_regWrIgnored_refused_on_timeout : ¬ (Instr.regWrIgnored true 0x2B 0).WellFormed := by decide
theorem test_wf_accepts : (Instr.start true 3 0x3).WellFormed ∧ (Instr.regWrIgnored false 0x2C 0).WellFormed := by decide

/-! ### Decoding words written out from 30_encoding.md R80 to R84 (the words are those of 95_test_vectors.md 2.6 and 3) -/

theorem test_decode_start : decodeHost 0x20000000011 = .start false 0 0x11 := by decide
theorem test_decode_start_wins : decodeHost 0x20000000003 = .start false 0 0x3 := by decide
theorem test_decode_decode : decodeHost 0x2000000000A = .decode false 0 0x0A := by decide
theorem test_decode_ctrlCfg : decodeHost 0x20000000318 = .ctrlCfg false 0 0x318 := by decide
theorem test_decode_ctrlCfg_rdwr : decodeHost 0x30000000010 = .ctrlCfg true 0 0x10 := by decide
theorem test_decode_statusW1c : decodeHost 0x20400000002 = .statusW1c false 0 0x2 := by decide
theorem test_decode_frameLoWr : decodeHost 0x2189A991900 = .frameLoWr false 0 0x9A991900 := by decide
theorem test_decode_frameHiWr : decodeHost 0x21CFFFFFFFF = .frameHiWr false 0 0xFFFFFFFF := by decide
theorem test_decode_frameLenWr : decodeHost 0x22000000107 = .frameLenWr false 0 0x107 := by decide
theorem test_decode_timeoutWr : decodeHost 0x22800000005 = .timeoutWr false 0 5 := by decide
theorem test_decode_regWrIgnored : decodeHost 0x2083F800000 = .regWrIgnored false 0x08 0x3F800000 := by decide
theorem test_decode_regWrIgnored_reserved : decodeHost 0x24012345678 = .regWrIgnored false 0x40 0x12345678 := by decide
theorem test_decode_regRd : decodeHost 0x12F00000000 = .regRd 0x2F 0 := by decide
theorem test_decode_nop : decodeHost 0x00000000000 = .nop 0 0 := by decide
theorem test_decode_bind : decodeReq 0x01C0000000 = .ok .bind := by rfl
theorem test_decode_writeTrigger : decodeReq 0x09C30033AC = .ok .writeTrigger := by rfl
theorem test_decode_readFrame : decodeReq 0x11C7000000 = .ok .readFrame := by rfl
theorem test_decode_reserved_kind : decodeReq 0x19C0000000 = .error .reservedBusOp := by rfl
theorem test_decode_other_request : decodeReq 0x01C8000000 = .error .notABlockRequest := by rfl
theorem test_decode_rspOk : decodeRsp false 0x00000000000000000 = .rspOk 0 0 := by decide
theorem test_decode_rspErr : decodeRsp true 0x10000000000000000 = .rspErr 0 0 := by decide
theorem test_decode_rspData : decodeRsp true 0x006AA00000800801C = .rspData 6 0xAA00000800801C := by decide
theorem test_decode_table_words :
    decodeTableWord 42 0x20000000001 = some (.start false 0 1) ∧ decodeTableWord 40 0x11C7000000 = some .readFrame ∧
      decodeTableWord 72 0x10000000000000000 = some (.rspErr 0 0) ∧ decodeTableWord 40 0x19C0000000 = none := by decide

/-! ### One step: host operations (95_test_vectors.md 2.5, 2.6) -/

theorem test_start_h8 :
    answers (step (onHost 0x200FFFFFFFF State.reset)) (fun t => t.st == .bindReq && ctrlValue t == 0xF18) = true := by
  decide
theorem test_start_busy_sets_ovr :
    answers (step (onHost 0x20000000011 (mid .settle))) (fun t => t.st == .settle && t.ovr && t.ie) = true := by decide
theorem test_decode_enters_decode :
    answers (step (onHost 0x2000000000A State.reset)) (fun t => t.st == .decode && t.crcEn && t.mode == .decodeOnly)
      = true := by decide
theorem test_decode_busy :
    answers (step (onHost 0x2000000000A (mid .readRsp))) (fun t => t.st == .readRsp && t.ovr && !t.crcEn) = true := by
  decide
theorem test_ctrlCfg_h7 :
    answers (step (onHost 0x20000000318 State.reset)) (fun t => t.st == .idle && ctrlValue t == 0x318) = true := by decide
theorem test_ctrlCfg_h9 :
    answers (step (onHost 0x20000000004 State.reset)) (fun t => t.st == .idle && ctrlValue t == 0) = true := by decide
theorem test_statusW1c_h11 :
    answers (step (onHost 0x20400000002 { State.reset with done := true, valid := true }))
      (fun t => statusValue t == 0x8) = true := by decide
theorem test_statusW1c_loses_to_finish :
    answers (step (onHost 0x20400000006 { mid .decode with ovr := true, frameLen := 7, frame := goodFrame }))
      (fun t => t.done && !t.ovr && t.st == .idle) = true := by decide
theorem test_frameLoWr_h12 :
    answers (step (onHost 0x2189A991900 State.reset)) (fun t => t.frame.lo == 0x9A991900 && t.frame.b1 == 0x19)
      = true := by decide
theorem test_frameLoWr_h19 :
    answers (step (onHost 0x21812345678 (mid .settle))) (fun t => t.frame == Frame.zero && !t.ovr) = true := by decide
theorem test_frameHiWr_h13 :
    answers (step (onHost 0x21CFFFFFFFF State.reset)) (fun t => t.frame.hi == 0x00FFFFFF) = true := by decide
theorem test_frameLenWr_h14 :
    answers (step (onHost 0x22000000107 State.reset)) (fun t => t.frameLen == 7) = true := by decide
theorem test_timeoutWr_h15 :
    answers (step (onHost 0x228FFFFFFFF State.reset)) (fun t => t.timeout == 0xFFFFFFFF) = true := by decide
theorem test_timeoutWr_h20 :
    answers (step (onHost 0x22800000007 (mid .bindRsp))) (fun t => t.timeout == 5 && t.toCnt == 4) = true := by decide
theorem test_regWrIgnored_h16 :
    answers (step (onHost 0x2083F800000 State.reset)) (fun t => t.temp == 0 && !t.hRvalid) = true := by decide
theorem test_regRd_h5 :
    answers (step (onHost 0x12F00000000 State.reset)) (fun t => t.hRdata == 0x01500738 && t.hRvalid) = true := by decide
theorem test_rdwr_h21 :
    answers (step (onHost 0x30000000010 State.reset)) (fun t => t.hRdata == 0 && t.hRvalid && t.ie) = true := by decide
theorem test_nop_h22 :
    answers (step (onHost 0 { State.reset with hRdata := 9, hRvalid := true })) (fun t => t.hRdata == 9 && !t.hRvalid)
      = true := by decide

/-! ### One step: the bus side (95_test_vectors.md 2.5, P5, P7) -/

theorem test_bind_accepted :
    answers (step (onReady { mid .bindReq with toCnt := 3 })) (fun t => t.st == .bindRsp && t.toCnt == 2) = true := by
  decide
theorem test_bind_timeout_s13 :
    answers (step (onReady { State.reset with st := .bindReq, timeout := 1, toCnt := 1 }))
      (fun t => statusValue t == 0x1212 && t.cancelQ) = true := by decide
theorem test_writeTrigger_timeout_unaccepted :
    answers (step (onIdle { State.reset with st := .writeReq, timeout := 1, toCnt := 1 }))
      (fun t => statusValue t == 0x3212 && !t.cancelQ) = true := by decide
theorem test_readFrame_accepted :
    answers (step (onReady (mid .readReq))) (fun t => t.st == .readRsp && t.toCnt == 4) = true := by decide
theorem test_rspOk_write_loads_settle :
    answers (step (onBus 0 (mid .writeRsp))) (fun t => t.st == .settle && t.settleCnt == 79) = true := by decide
theorem test_rspErr_s2 :
    answers (step (onBus 0x10000000000000000 { State.reset with st := .bindRsp })) (fun t => statusValue t == 0x2112)
      = true := by decide
theorem test_rspData_p6 :
    answers (step (onBus 0x006AA00000800801C (mid .readRsp)))
      (fun t => t.st == .decode && t.frame.lo == 0x0800801C && t.frame.hi == 0 && t.frameLen == 6) = true := by decide
theorem test_silent_read_p5 :
    answers (step (onIdle { State.reset with st := .readRsp, timeout := 5, toCnt := 1 }))
      (fun t => statusValue t == 0x7212 && t.cancelQ) = true := by decide
theorem test_response_beats_timeout :
    answers (step (onBus 0 { mid .bindRsp with toCnt := 1 })) (fun t => t.st == .writeReq && t.errCode == 0) = true := by
  decide
theorem test_settle_hands_over :
    answers (step (onIdle { mid .settle with settleCnt := 0 })) (fun t => t.st == .readReq && t.toCnt == 5) = true := by
  decide

/-! ### Decoder and conversion (95_test_vectors.md 2.1 to 2.4) -/

theorem test_crc_check_value :
    crc8 0x31 0xFF [0x31, 0x32, 0x33, 0x34, 0x35, 0x36, 0x37, 0x38, 0x39] = 0xF7 := by decide +kernel
theorem test_crc_p1 : crc8 0x31 0xFF [0x08, 0x4D, 0x9A, 0xA6, 0xA7, 0xEF] = 0xE6 := by decide +kernel
theorem test_decoder_d1 :
    decodeFrame Params.default goodFrame 7 false = .ok 0x19999 0xA6666 0x411FFFC4 0x429FFFF6 := by decide +kernel
theorem test_decoder_d2 : decodeFrame Params.default goodFrame 7 true = .err .checksum := by decide +kernel
theorem test_decoder_d19 :
    decodeFrame Params.default (bytes 0xFF 0xFF 0xFF 0xFF 0xFF 0xFF 0xFF) 7 true = .err .busy := by decide
theorem test_decoder_d21 : decodeFrame Params.default (bytes 1 0 0 0 0 0 0) 6 false = .err .length := by decide
theorem test_hum32 : hum32 0xA3D71 = 0x42800004 ∧ hum32 0xFFFFF = 0x42C7FFF4 ∧ hum32 1 = 0x38C80000 := by decide +kernel
theorem test_temp32_stepwise :
    temp32 .stepwiseF32 0xA3D71 = 0x429C0008 ∧ temp32 .stepwiseF32 0x3FFFF = 0xB9480000 ∧
      temp32 .stepwiseF32 0x40000 = 0 := by decide +kernel
theorem test_temp32_exact :
    temp32 .exactThenF32 0xA3D71 = 0x429C0009 ∧ temp32 .exactThenF32 0xE3D6F = 0x42FFFFD7 ∧
      temp32 .exactThenF32 0 = 0xC2480000 := by decide +kernel

/-! ### The listing notation (30_encoding.md R96, R97; 95_test_vectors.md P1, P3) -/

theorem test_listing_start : (pseudoStart false true 0).map HostLine.word = [0x20000000011] := by decide
theorem test_listing_load_frame :
    (pseudoLoadFrame goodFrame 7).map HostLine.word = [0x2189A991900, 0x21C00006666, 0x22000000007] := by decide
theorem test_listing_data :
    (TransportLine.data [0x1C, 0x80, 0x00, 0x08, 0x00, 0x00, 0xB9] 7).word = some 0x007B900000800801C := by decide

/-! ### The transport's account (40_sequencer.md R130; 95_test_vectors.md P7, cycle 6) -/

/-- The BIND presented beside `b_cancel` = 1 is new: the earlier one is abandoned, the new one is owed. -/
theorem test_cancel_beside_a_new_bind :
    ({ last := St.bindReq.request, older := [] } : Account).cycle
        { State.reset with st := .bindReq, attempt := 1, cancelQ := true }.outputs Inputs.ready =
      { last := St.bindReq.request, older := [] } := by decide

/-- A response that nothing owes, in a later RSP state, is taken as that state's response. -/
theorem test_stale_response_taken :
    answers (step (onBus 0x0 { mid .writeRsp with attempt := 1, errCode := 1, errCause := 2 }))
      (fun t => t.st == .settle) = true := by decide

/-! ### Witnesses: for every statement with hypotheses, states and operands that meet them all together -/

theorem default_legal : Params.default.Legal := by decide

/-- A reachable kind of state outside IDLE that meets the invariant, for each place of an attempt. -/
theorem mid_inv (st : St) (hu : ∀ k, st ≠ .unused k) (xs : List Inputs) (b : Byte) :
    Inv { mid st with script := xs, bound := some Config.sensorAddr, frameLen := b, frame := goodFrame } where
  cfgLegal := default_legal
  stLegal := hu
  attemptBounded := fun _ => (by decide : (1 : BitVec 4) ≤ 2)
  decodeOnlyOffBus := fun h => by cases h
  settleBounded := fun _ => (by decide : (2 : Reg32).toNat < Params.default.settleCycles)
  timerArmed := fun _ => (by decide : (5 : Reg32) ≤ 5 ∧ ((5 : Reg32) = 0 ↔ (5 : Reg32) = 0))
  errorLegal := .inl ⟨rfl, rfl, rfl⟩
  doneIdle := fun h => by cases h
  doneValid := fun h => by cases h
  resultsMatch := fun h => by cases h
  resultsReset := fun _ => ⟨rfl, rfl, rfl, rfl⟩
  cancelAfterTimeout := fun h => by cases h
  boundBeforeUse := fun _ => rfl

/-- A state in the cycle after a timeout: `b_cancel` is 1 and the retried BIND is presented, with TIMEOUT = T. -/
def cancelling (T : Reg32) (xs : List Inputs) : State :=
  { State.reset with
    st := .bindReq, attempt := 1, maxRetry := 3, timeout := T, toCnt := T, cancelQ := true,
    errCode := 1, errCause := 2, errState := 0x1, script := xs }

theorem cancelling_inv (T : Reg32) (xs : List Inputs) : Inv (cancelling T xs) where
  cfgLegal := default_legal
  stLegal := fun _ h => by cases h
  attemptBounded := fun _ => (by decide : (1 : BitVec 4) ≤ 3)
  decodeOnlyOffBus := fun h => by cases h
  settleBounded := fun h => by cases h
  timerArmed := fun _ => ⟨Nat.le_refl _, Iff.rfl⟩
  errorLegal := .inr ⟨.timeout, .bindReq, rfl, rfl, rfl, rfl⟩
  doneIdle := fun h => by cases h
  doneValid := fun h => by cases h
  resultsMatch := fun h => by cases h
  resultsReset := fun _ => ⟨rfl, rfl, rfl, rfl⟩
  cancelAfterTimeout := fun _ => ⟨.inr ⟨rfl, rfl⟩, rfl, rfl⟩
  boundBeforeUse := fun h => by rcases h with h | h | h | h | h <;> cases h

theorem witness_ResetEdgeSetsEveryRegister :
    ∃ (s : State) (x : Inputs) (rest : List Inputs), s.script = x :: rest ∧ x.rst = true :=
  ⟨scripted (mid .readRsp) [{ Inputs.ready with rst := true, hWr := true }], _, _, rfl, rfl⟩

theorem witness_OutputsAreQuietAfterReset :
    ∃ (n : Nat) (s : State), n = 1 ∧ n < s.script.length ∧ ∀ x ∈ s.script.take (n + 1), x.rst = true :=
  ⟨1, scripted (mid .bindReq) (List.replicate 2 { Inputs.ready with rst := true }), rfl, by decide, by decide⟩

theorem witness_HostRegistersReadResetValues :
    ∃ a : Byte, (a = 0x00 ∨ a = 0x04 ∨ a = 0x08 ∨ a = 0x0C ∨ a = 0x10 ∨ a = 0x14 ∨ a = 0x18 ∨ a = 0x1C ∨ a = 0x20 ∨
      a = 0x28) := ⟨0x28, by decide⟩

theorem witness_ResetMeetsInvariant :
    ({ Params.default with clkPerMs := 1 } : Params).Legal ∧
      ({ Params.default with clkPerMs := 53687091 } : Params).Legal := by decide

theorem witness_StepKeepsInvariant : ∃ s t : State, s.st = .readRsp ∧ Inv s ∧ step s = .next t :=
  ⟨_, _, rfl, mid_inv .readRsp (by decide) [Inputs.idle] 0, rfl⟩

theorem witness_StepRunsDecodedOperations :
    ∃ (s p : State) (i : Instr) (h : State),
      (∀ x rest, s.script = x :: rest → p = { s with inp := x, script := rest }) ∧
      (s.script = [] → p = { s with inp := Config.freeInputs s.draws, draws := s.draws + 1 }) ∧
      p.inp.rst = false ∧
      decode false (.hostop (hostWord p.inp.hWr p.inp.hRd p.inp.hAddr p.inp.hWdata)) = .ok i ∧
      i = .start false 0 0x11 ∧ exec i { p with cancelQ := false } = .next h :=
  ⟨onHost 0x20000000011 State.reset, { State.reset with inp := Inputs.ofHostWord 0x20000000011 }, .start false 0 0x11, _,
    by rintro x rest ⟨⟩; rfl, by rintro ⟨⟩, rfl, rfl, rfl, rfl⟩

theorem witness_BusOperationOfEachState :
    (mid .bindReq).st = .bindReq ∧ (mid .writeReq).st = .writeReq ∧ (mid .readReq).st = .readReq ∧
    (∃ s : State, s.st.isRsp = true ∧ s.inp.bRspValid = false) ∧
    (∃ s : State, s.st.isRsp = true ∧ s.inp.bRspValid = true ∧ s.inp.bRspErr = true) ∧
    (∃ s : State, s.st = .bindRsp ∧ s.inp.bRspValid = true ∧ s.inp.bRspErr = false) ∧
    (∃ s : State, s.st = .writeRsp ∧ s.inp.bRspValid = true ∧ s.inp.bRspErr = false) ∧
    (∃ s : State, s.st = .readRsp ∧ s.inp.bRspValid = true ∧ s.inp.bRspErr = false) ∧
    (∃ s : State, s.st = .settle ∧ s.st.isReq = false ∧ s.st.isRsp = false) :=
  ⟨rfl, rfl, rfl, ⟨mid .readRsp, rfl, rfl⟩,
    ⟨{ mid .readRsp with inp := Inputs.ofRspWord 0x10000000000000000 }, rfl, rfl, rfl⟩,
    ⟨{ mid .bindRsp with inp := Inputs.ofRspWord 0 }, rfl, rfl, rfl⟩,
    ⟨{ mid .writeRsp with inp := Inputs.ofRspWord 0 }, rfl, rfl, rfl⟩,
    ⟨{ mid .readRsp with inp := Inputs.ofRspWord 0 }, rfl, rfl, rfl⟩, ⟨mid .settle, rfl, rfl, rfl⟩⟩

theorem witness_HostAndSequencerDoNotInterfere :
    (∃ (s p : State) (x : Inputs) (rest : List Inputs), s.script = x :: rest ∧ x.rst = false ∧
      p = { s with inp := x, script := rest, cancelQ := false } ∧ s.st = .idle) ∧
    (∃ (s p : State) (x : Inputs) (rest : List Inputs), s.script = x :: rest ∧ x.rst = false ∧
      p = { s with inp := x, script := rest, cancelQ := false } ∧ s.st ≠ .idle) :=
  ⟨⟨onIdle State.reset, _, _, _, rfl, rfl, rfl, rfl⟩, ⟨onHost 0x20400000006 (mid .decode), _, _, _, rfl, rfl, rfl, by decide⟩⟩

/-- Two answers to a READ that differ in `b_req_ready` and beyond the first N bytes. -/
theorem witness_UnreadBusInputsHaveNoEffect :
    ∃ (s : State) (x y : Inputs), x ≠ y ∧ s.st = .readRsp ∧ x.bRspValid = true ∧ x.bRspErr = false ∧
      x.rst = y.rst ∧ x.hWr = y.hWr ∧ x.hRd = y.hRd ∧ x.hAddr = y.hAddr ∧ x.hWdata = y.hWdata ∧
      (s.st.isReq = true → x.bReqReady = y.bReqReady) ∧
      (s.st.isRsp = true → x.bRspValid = y.bRspValid ∧ (x.bRspValid = true → x.bRspErr = y.bRspErr)) ∧
      (s.st = .readRsp → x.bRspValid = true → x.bRspErr = false → x.bRspCount = y.bRspCount ∧
        ∀ k, k < 7 → k < x.bRspCount.toNat → rdataByte x.bRspRdata k = rdataByte y.bRspRdata k) :=
  ⟨mid .readRsp, Inputs.ofRspWord 0x00200000000003412, { Inputs.ofRspWord 0x002FF000000003412 with bReqReady := true },
    by decide, rfl, rfl, rfl, rfl, rfl, rfl, rfl, rfl, by decide, by decide, fun _ _ _ => ⟨rfl, by decide⟩⟩

theorem witness_DecodeOfEncodeIsTheInstruction :
    (Instr.start true 3 0xFFFFFFFF).WellFormed ∧ (Instr.decode false 0 0xFFFFFFFE).WellFormed ∧
      (Instr.ctrlCfg false 2 0xFFFFFFFC).WellFormed ∧ (Instr.regWrIgnored true 0x17 5).WellFormed ∧
      (Instr.regWrIgnored true 0x30 5).WellFormed ∧ (Instr.regWrIgnored true 0xFF 5).WellFormed := by decide

theorem witness_OnlyThreeRequestWordsDecode : ∃ w : ReqWord, w.extractLsb' 35 2 = (0b11 : BitVec 2) :=
  ⟨0x1FFFFFFFFF, by decide⟩

/-- The host operations in IDLE and outside it: START, DECODE and the four registers writable in IDLE. -/
theorem witness_StartBeginsAnAttemptOrSetsOvr : State.reset.st = .idle ∧ (mid .settle).st ≠ .idle := by decide
theorem witness_DecodeEntersDecodeOrSetsOvr : State.reset.st = .idle ∧ (mid .decode).st ≠ .idle := by decide
theorem witness_FrameAndTimeoutWritesInIdle : State.reset.st = .idle := by decide
theorem witness_FrameAndTimeoutWritesIgnoredWhileBusy : (mid .bindRsp).st ≠ .idle := by decide
theorem witness_HostOperationsWhileBusyTouchOnlyFlags : (mid .bindReq).st ≠ .idle := by decide
theorem witness_StatusReadsItsFields : ∃ (s : State) (v : Reg32), v = memRead s 0x04 := ⟨mid .settle, _, rfl⟩
theorem witness_HostRegistersReadTheirFields : (31 : Nat) < 32 := by decide
theorem witness_ReadsAliasToWordsAndReservedReadZero : (0x30 : Byte) ≤ 0x30 ∧ (0x30 : Byte) ≤ 0xFF := by decide

theorem witness_RequestWaitsUntilAccepted :
    (mid .bindReq).toCnt ≠ 1 ∧ { mid .writeReq with toCnt := 2 }.toCnt ≠ 1 ∧ { mid .readReq with toCnt := 0 }.toCnt ≠ 1 ∧
      (mid .bindReq).st = .bindReq ∧ { mid .writeReq with toCnt := 2 }.st = .writeReq ∧
      { mid .readReq with toCnt := 0 }.st = .readReq := by decide

theorem witness_RequestTimeoutRaisesBusFault :
    { mid .bindReq with toCnt := 1 }.toCnt = 1 ∧ { mid .writeReq with toCnt := 1, maxRetry := 1 }.toCnt = 1 ∧
      { mid .readReq with toCnt := 1 }.toCnt = 1 ∧ (mid .bindReq).st = .bindReq ∧ (mid .writeReq).st = .writeReq ∧
      (mid .readReq).st = .readReq := by decide

theorem witness_SuccessResponsesAdvance : (mid .bindRsp).st = .bindRsp ∧ (mid .writeRsp).st = .writeRsp := by decide

theorem witness_ErrorResponseRaisesBusFault :
    (mid .bindRsp).st.isRsp = true ∧ (mid .writeRsp).st.isRsp = true ∧ (mid .readRsp).st.isRsp = true := by decide

theorem witness_DataResponseCapturesTheFrame : (mid .readRsp).st = .readRsp ∧ (0 : Nat) < 7 ∧ (6 : Nat) < 7 := by decide

theorem witness_BusOperationsOffTheirStatesDoNothing :
    (mid .settle).st.isRsp = false ∧ (mid .settle).st ≠ .bindReq ∧ (mid .settle).st ≠ .writeReq ∧
      (mid .settle).st ≠ .readReq := by decide

theorem witness_SilentResponseStateCountsOrTimesOut :
    (∃ (s : State) (x : Inputs) (rest : List Inputs), s.script = x :: rest ∧ x.rst = false ∧ x.hWr = false ∧
      x.hRd = false ∧ x.bRspValid = false ∧ s.st.isRsp = true ∧ s.toCnt = 1) ∧
    (∃ (s : State) (x : Inputs) (rest : List Inputs), s.script = x :: rest ∧ x.rst = false ∧ x.hWr = false ∧
      x.hRd = false ∧ x.bRspValid = false ∧ s.st.isRsp = true ∧ s.toCnt = 0) :=
  ⟨⟨onIdle { mid .writeRsp with toCnt := 1 }, _, _, rfl, rfl, rfl, rfl, rfl, rfl, rfl⟩,
    ⟨onIdle { mid .readRsp with toCnt := 0 }, _, _, rfl, rfl, rfl, rfl, rfl, rfl, rfl⟩⟩

theorem witness_ResponseBeatsTimeout :
    ∃ (s : State) (x : Inputs) (rest : List Inputs), s.script = x :: rest ∧ x.rst = false ∧ x.hWr = false ∧
      x.hRd = false ∧ x.bRspValid = true ∧ x.bRspErr = false ∧ s.st.isRsp = true ∧ s.toCnt = 1 :=
  ⟨onBus 0 { mid .readRsp with toCnt := 1 }, _, _, rfl, rfl, rfl, rfl, rfl, rfl, rfl, rfl⟩

theorem witness_SettleCountsDown :
    (∃ (s : State) (x : Inputs) (rest : List Inputs), s.script = x :: rest ∧ x.rst = false ∧ x.hWr = false ∧
      x.hRd = false ∧ s.st = .settle ∧ s.settleCnt = 0) ∧
    (∃ (s : State) (x : Inputs) (rest : List Inputs), s.script = x :: rest ∧ x.rst = false ∧ x.hWr = false ∧
      x.hRd = false ∧ s.st = .settle ∧ s.settleCnt = 1) :=
  ⟨⟨onIdle { mid .settle with settleCnt := 0 }, _, _, rfl, rfl, rfl, rfl, rfl, rfl⟩,
    ⟨onIdle { mid .settle with settleCnt := 1 }, _, _, rfl, rfl, rfl, rfl, rfl, rfl⟩⟩

theorem witness_SettleLastsExactlySettleCycles :
    ∃ s : State, s.cfg.Legal ∧ s.st = .settle ∧ s.settleCnt = BitVec.ofNat 32 (s.cfg.settleCycles - 1) ∧
      NoResetFor s.cfg.settleCycles s :=
  ⟨scripted { mid .settle with settleCnt := 79 } (List.replicate 80 Inputs.ready), by decide, rfl, by decide, by decide,
    by decide⟩

theorem witness_DecodeSuccessCompletes :
    ∃ (s : State) (x : Inputs) (rest : List Inputs) (h t : BitVec 20) (hb tb : Reg32), s.script = x :: rest ∧
      x.rst = false ∧ x.hWr = false ∧ x.hRd = false ∧ s.st = .decode ∧
      decodeFrame s.cfg s.frame s.frameLen s.crcEn = .ok h t hb tb :=
  ⟨onIdle { mid .decode with frame := goodFrame, frameLen := 7 }, _, _, 0x19999, 0xA6666, 0x411FFFC4, 0x429FFFF6, rfl, rfl,
    rfl, rfl, rfl, by decide +kernel⟩

theorem witness_DecodeErrorRecordsAndRetries :
    (∃ (s : State) (x : Inputs) (rest : List Inputs) (e : ProtocolError), s.script = x :: rest ∧ x.rst = false ∧
      x.hWr = false ∧ x.hRd = false ∧ s.st = .decode ∧ decodeFrame s.cfg s.frame s.frameLen s.crcEn = .err e ∧
      s.mode = .cycle ∧ s.attempt < s.maxRetry) ∧
    (∃ (s : State) (x : Inputs) (rest : List Inputs) (e : ProtocolError), s.script = x :: rest ∧ x.rst = false ∧
      x.hWr = false ∧ x.hRd = false ∧ s.st = .decode ∧ decodeFrame s.cfg s.frame s.frameLen s.crcEn = .err e ∧
      ¬(s.mode = .cycle ∧ s.attempt < s.maxRetry)) :=
  ⟨⟨onIdle { mid .decode with frameLen := 6 }, _, _, .length, rfl, rfl, rfl, rfl, rfl, rfl, rfl, by decide⟩,
    ⟨onIdle { mid .decode with frameLen := 8, maxRetry := 1 }, _, _, .length, rfl, rfl, rfl, rfl, rfl, rfl, by decide⟩⟩

theorem witness_DoneSetBeatsDoneClear :
    (∃ (s t : State) (x : Inputs) (rest : List Inputs), s.script = x :: rest ∧ x.rst = false ∧ x.hWr = true ∧
      wordIndex x.hAddr = 1 ∧ s.st ≠ .idle ∧ step s = .next t ∧ t.st = .idle) ∧
    (∃ (s t : State) (x : Inputs) (rest : List Inputs), s.script = x :: rest ∧ x.rst = false ∧ x.hWr = true ∧
      wordIndex x.hAddr = 1 ∧ s.st ≠ .idle ∧ step s = .next t ∧ t.st ≠ .idle) :=
  ⟨⟨onHost 0x20400000006 { mid .decode with frameLen := 6, maxRetry := 1 }, _, _, _, rfl, rfl, rfl, rfl, by decide, rfl, rfl⟩,
    ⟨onHost 0x20400000006 (mid .settle), _, _, _, rfl, rfl, rfl, rfl, by decide, rfl, by decide⟩⟩

/-- An edge without reset, from every value of `st`. -/
theorem witness_every_state (st : St) :
    ∃ (s t : State) (x : Inputs) (rest : List Inputs), s.st = st ∧ s.script = x :: rest ∧ x.rst = false ∧
      step s = .next t := by
  rcases st with _ | _ | _ | _ | _ | _ | _ | _ | _ | k <;> try exact ⟨onIdle (mid _), _, _, _, rfl, rfl, rfl, rfl⟩
  fin_cases k <;> exact ⟨onIdle (mid _), _, _, _, rfl, rfl, rfl, rfl⟩

theorem witness_TransitionsFollowTheTable (st : St) :
    ∃ (s t : State) (x : Inputs) (rest : List Inputs) (err : St), s.st = st ∧ s.script = x :: rest ∧ x.rst = false ∧
      step s = .next t ∧ err = (if s.mode = .cycle ∧ s.attempt < s.maxRetry then .bindReq else .idle) :=
  have ⟨s, t, x, rest, h⟩ := witness_every_state st
  ⟨s, t, x, rest, _, h.1, h.2.1, h.2.2.1, h.2.2.2, rfl⟩

/-- The three rows of DECODE: Ok, an error with a retry left, an error without. -/
theorem witness_TransitionsFollowTheTable_decode :
    (∃ s : State, s.st = .decode ∧ s.attempt < s.maxRetry ∧ s.mode = .cycle ∧
      decodeFrame s.cfg s.frame s.frameLen s.crcEn = .ok 0x19999 0xA6666 0x411FFFC4 0x429FFFF6) ∧
    (∃ s : State, s.st = .decode ∧ s.attempt < s.maxRetry ∧ s.mode = .cycle ∧
      decodeFrame s.cfg s.frame s.frameLen s.crcEn = .err .length) ∧
    (∃ s : State, s.st = .decode ∧ s.attempt = s.maxRetry ∧ s.mode = .cycle ∧
      decodeFrame s.cfg s.frame s.frameLen s.crcEn = .err .length) :=
  ⟨⟨{ mid .decode with frame := goodFrame, frameLen := 7 }, rfl, by decide, rfl, by decide +kernel⟩,
    ⟨mid .decode, rfl, by decide, rfl, rfl⟩, ⟨{ mid .decode with attempt := 2 }, rfl, rfl, rfl, rfl⟩⟩

theorem witness_ResultsChangeOnlyOnSuccess :
    ∃ (s t : State) (x : Inputs) (rest : List Inputs), s.st = .decode ∧ s.script = x :: rest ∧ x.rst = false ∧
      step s = .next t := witness_every_state .decode

theorem witness_FrameChangesOnlyByReadOrHost :
    (∃ (s t : State) (x : Inputs) (rest : List Inputs), s.script = x :: rest ∧ x.rst = false ∧ step s = .next t ∧
      s.st = .readRsp ∧ t.frameLen ≠ s.frameLen) ∧
    (∃ (s t : State) (x : Inputs) (rest : List Inputs), s.script = x :: rest ∧ x.rst = false ∧ step s = .next t ∧
      s.st = .idle ∧ t.frame ≠ s.frame) :=
  ⟨⟨onBus 0x006AA00000800801C (mid .readRsp), _, _, _, rfl, rfl, rfl, rfl, by decide⟩,
    ⟨onHost 0x2189A991900 State.reset, _, _, _, rfl, rfl, rfl, rfl, by decide⟩⟩

theorem witness_ConfigurationIsFixedDuringACommand :
    ∃ (s t : State) (x : Inputs) (rest : List Inputs), step s = .next t ∧ s.script = x :: rest ∧ x.rst = false ∧
      s.st ≠ .idle := ⟨onHost 0x200FFFFFFFF (mid .settle), _, _, _, rfl, rfl, rfl, by decide⟩

/-- A state of a first attempt with `timeout` = 0. -/
def stalled (st : St) (xs : List Inputs) : State :=
  { State.reset with st := st, script := xs, bound := some Config.sensorAddr }

theorem stalled_inv (st : St) (h : st = .bindReq ∨ st = .readRsp ∨ st = .decode) (xs : List Inputs) : Inv (stalled st xs) where
  cfgLegal := default_legal
  stLegal := fun k e => by rcases h with rfl | rfl | rfl <;> cases e
  attemptBounded := fun _ => (by decide : (0 : BitVec 4) ≤ 0)
  decodeOnlyOffBus := fun h => by cases h
  settleBounded := fun e => by rcases h with rfl | rfl | rfl <;> cases e
  timerArmed := fun _ => (by decide : (0 : Reg32) ≤ 0 ∧ ((0 : Reg32) = 0 ↔ (0 : Reg32) = 0))
  errorLegal := .inl ⟨rfl, rfl, rfl⟩
  doneIdle := fun h => by cases h
  doneValid := fun h => by cases h
  resultsMatch := fun h => by cases h
  resultsReset := fun _ => ⟨rfl, rfl, rfl, rfl⟩
  cancelAfterTimeout := fun h => by cases h
  boundBeforeUse := fun _ => rfl

theorem witness_StatusAfterACommandFinishes :
    (∃ (s t : State) (x : Inputs) (rest : List Inputs), Inv s ∧ s.script = x :: rest ∧ x.rst = false ∧ s.st ≠ .idle ∧
      step s = .next t ∧ t.st = .idle ∧ t.errCode = 0) ∧
    (∃ (s t : State) (x : Inputs) (rest : List Inputs), Inv s ∧ s.script = x :: rest ∧ x.rst = false ∧ s.st ≠ .idle ∧
      step s = .next t ∧ t.st = .idle ∧ t.errCode ≠ 0) :=
  ⟨⟨_, _, _, _, mid_inv .decode (by decide) [Inputs.idle] 7, rfl, rfl, by decide, rfl, rfl, rfl⟩,
    ⟨stalled .decode [Inputs.idle], _, _, _, stalled_inv _ (.inr (.inr rfl)) _, rfl, rfl, by decide, rfl, rfl, by decide⟩⟩

theorem witness_StalledTransportHangsTheBlock :
    (∃ (n : Nat) (s : State), n = 2 ∧ Inv s ∧ s.timeout = 0 ∧ NoResetFor n s ∧ s.st.isReq = true ∧
      ∀ x ∈ s.script.take n, x.bReqReady = false) ∧
    (∃ (n : Nat) (s : State), n = 2 ∧ Inv s ∧ s.timeout = 0 ∧ NoResetFor n s ∧ s.st.isRsp = true ∧
      ∀ x ∈ s.script.take n, x.bRspValid = false) :=
  ⟨⟨2, stalled .bindReq [Inputs.idle, Inputs.ofHostWord 0x20000000001], rfl, stalled_inv _ (.inl rfl) _, rfl,
      ⟨by decide, by decide⟩, rfl, by decide⟩,
    ⟨2, stalled .readRsp [Inputs.ready, Inputs.idle], rfl, stalled_inv _ (.inr (.inl rfl)) _, rfl, ⟨by decide, by decide⟩, rfl,
      by decide⟩⟩

theorem witness_UnusedStateIsStuckUntilReset :
    (∃ (n : Nat) (s : State), n = 1 ∧ s.st = .unused 0 ∧ NoResetFor n s) ∧
    (∃ (n : Nat) (s : State), n = 1 ∧ s.st = .unused 6 ∧ NoResetFor n s) :=
  ⟨⟨1, onReady (mid (.unused 0)), rfl, rfl, by decide, by decide⟩,
    ⟨1, onHost 0x20000000001 (mid (.unused 6)), rfl, rfl, by decide, by decide⟩⟩

/-- The smallest bound: TIMEOUT = 1, MAX_RETRY = 0, S = 80, so 84 edges. -/
theorem witness_StartFinishesWithinTheBound :
    ∃ (s : State) (x : Inputs) (rest : List Inputs) (bound : Nat), s.cfg.Legal ∧ s.st = .idle ∧ s.timeout ≠ 0 ∧
      s.script = x :: rest ∧ x.rst = false ∧ x.hWr = true ∧ wordIndex x.hAddr = 0 ∧ x.hWdata.getLsbD 0 = true ∧
      bound = ((x.hWdata.extractLsb' 8 4 : BitVec 4).toNat + 1) * (3 * s.timeout.toNat + s.cfg.settleCycles + 1) ∧
      bound ≤ rest.length ∧ ∀ y ∈ rest.take bound, y.rst = false :=
  ⟨scripted { State.reset with timeout := 1 } (Inputs.ofHostWord 0x20000000001 :: List.replicate 84 Inputs.idle), _, _, 84,
    by decide, rfl, by decide, rfl, rfl, rfl, rfl, rfl, by decide, by decide, by decide⟩

theorem witness_CancelNeverLastsTwoCycles :
    ∃ s t : State, Inv s ∧ s.cancelQ = true ∧ step s = .next t :=
  ⟨_, _, cancelling_inv 1 [Inputs.ready], rfl, rfl⟩

theorem witness_CancelFollowsATimeoutAndLastsOneCycleUnlessTimeoutIsOne :
    (∃ (s t : State) (x : Inputs) (rest : List Inputs), s.script = x :: rest ∧ step s = .next t ∧ t.cancelQ = true) ∧
    (∃ (s t : State) (x : Inputs) (rest : List Inputs), s.script = x :: rest ∧ step s = .next t ∧ t.cancelQ = false) ∧
    (∃ (s t : State) (x : Inputs) (rest : List Inputs) (a : Account), s.script = x :: rest ∧ x.rst = false ∧
      step s = .next t ∧ a.last.isSome = true ∧ s.cancelQ = true ∧ a.Agrees s ∧ t.st = .bindRsp) ∧
    (∃ s t : State, Inv s ∧ s.timeout ≠ 1 ∧ s.cancelQ = true ∧ step s = .next t) :=
  ⟨⟨onIdle { mid .readRsp with toCnt := 1 }, _, _, _, rfl, rfl, rfl⟩,
    ⟨onIdle { mid .readReq with toCnt := 1 }, _, _, _, rfl, rfl, rfl⟩,
    ⟨cancelling 2 [Inputs.ready], _, _, _, { last := St.readReq.request, older := [] }, rfl, rfl, rfl, rfl, rfl, rfl, rfl⟩,
    ⟨_, _, cancelling_inv 2 [Inputs.ready], by decide, rfl, rfl⟩⟩

theorem witness_DecoderChecksInOrder :
    (6 : Byte) ≠ 7 ∧ (8 : Byte) ≠ 7 ∧ (bytes 1 0 0 0 0 0 0).b0.getLsbD 0 = true ∧ goodFrame.b0.getLsbD 0 = false ∧
      crc8 0x31 0xFF [0x00, 0x19, 0x99, 0x9A, 0x66, 0x66] ≠ 0x00 ∧
      crc8 0x31 0xFF [0x00, 0x19, 0x99, 0x9A, 0x66, 0x66] = 0x08 := by decide +kernel

theorem witness_RawFieldsAreABijection :
    (∃ f g : Frame, f ≠ g ∧ f.b1 = g.b1 ∧ f.b2 = g.b2 ∧ (f.b3.extractLsb' 4 4 : BitVec 4) = g.b3.extractLsb' 4 4) ∧
    (∃ f g : Frame, f ≠ g ∧ (f.b3.extractLsb' 0 4 : BitVec 4) = g.b3.extractLsb' 0 4 ∧ f.b4 = g.b4 ∧ f.b5 = g.b5) :=
  ⟨⟨bytes 0 1 2 0xF0 4 5 6, bytes 1 1 2 0xFF 9 9 9, by decide⟩, ⟨bytes 0 1 2 0x0F 4 5 6, bytes 1 9 9 0xFF 4 5 9, by decide⟩⟩

theorem witness_IgnoredFrameBitsDoNotMatter :
    (bytes 0x1C 1 2 3 4 5 6).b0.getLsbD 0 = (bytes 0x80 1 2 3 4 5 0xFF).b0.getLsbD 0 ∧
      bytes 0x1C 1 2 3 4 5 6 ≠ bytes 0x80 1 2 3 4 5 0xFF := by decide

theorem witness_ChecksumIsTheCrcRemainderAndAffine : ([0xBE, 0xEF] : List Byte).length = ([0x01, 0x02] : List Byte).length := rfl

theorem witness_ConversionsAreStrictlyIncreasing :
    (0x3FFFF : BitVec 20) < 0x40000 ∧ (0 : BitVec 20) < 1 ∧ (0xFFFFE : BitVec 20) < 0xFFFFF := by decide

theorem witness_EvaluationsDifferByOneUlpInOneRange :
    temp32 .stepwiseF32 0xA3D71 ≠ temp32 .exactThenF32 0xA3D71 ∧
      temp32 .stepwiseF32 0xE3D6F ≠ temp32 .exactThenF32 0xE3D6F := by decide +kernel

end Sys2Proof.Tests
end

section
/-! The output ports: what `irq` and the request outputs are in a state (10_state.md R45, R47). -/

namespace Sys2Proof.Machine

open Sys2Proof

@[simp] theorem State.outputs_irq (s : State) : s.outputs.irq = (s.done && s.ie) := rfl

/-- The number packed from the trigger bytes is the word that R45's table prints for WRITE. -/
theorem triggerWdata_eq : triggerWdata = 0x0033AC := by decide

theorem St.request_writeReq :
    St.writeReq.request = some { op := 0b01, addr := 0x38, len := 3, wdata := 0x0033AC } := by
  simp only [St.request, Config.sensorAddr, triggerWdata_eq]

/-- A state that presents a request drives valid and the request's fields. -/
theorem State.outputs_of_request {s : State} {r : Request} (h : s.st.request = some r) :
    (s.outputs.bReqValid, s.outputs.bReqOp, s.outputs.bReqAddr, s.outputs.bReqLen, s.outputs.bReqWdata) =
      (true, r.op, r.addr, r.len, r.wdata) := by
  simp only [State.outputs, h, Option.isSome_some, Option.getD_some]

/-- A state that presents none drives every request output to 0. -/
theorem State.outputs_of_noRequest {s : State} (h : s.st.request = none) :
    (s.outputs.bReqValid, s.outputs.bReqOp, s.outputs.bReqAddr, s.outputs.bReqLen, s.outputs.bReqWdata) =
      (false, 0, 0, 0, 0) := by
  simp only [State.outputs, h, Option.isSome_none, Option.getD_none]

/-- Settles O15: the three REQ states present R45's requests, and every other encoding of `st` presents none. -/
theorem outputsFollowTheRegisters : Obligations.OutputsFollowTheRegisters := by
  intro s
  refine ⟨s.outputs_irq, ?_⟩
  cases hst : s.st with
  | bindReq | readReq => exact State.outputs_of_request (by rw [hst]; rfl)
  | writeReq => exact State.outputs_of_request (by rw [hst, St.request_writeReq])
  | idle | bindRsp | writeRsp | settle | readRsp | decode | unused => exact State.outputs_of_noRequest (by rw [hst]; rfl)

end Sys2Proof.Machine
end

section
/-! The commands of a CTRL write: what START does from IDLE and while a command runs (40_sequencer.md R101, R103, R104). -/

namespace Sys2Proof.Machine

open Sys2Proof

/-- START is its read, then the configuration fields of its data, then the command. -/
theorem exec_start (rd : Bool) (lo : BitVec 2) (d : Reg32) (s : State) :
    exec (.start rd lo d) s = .next (startCommand (writeConfig d (hostRead rd (offsetOf 0x00 lo) s))) := rfl

theorem writeConfig_idle {s : State} (d : Reg32) (h : s.st = .idle) :
    writeConfig d s = { s with ie := ctrlIe d, crcEn := ctrlCrcEn d, maxRetry := ctrlMaxRetry d } := by
  simp [writeConfig, h]

/-- Settles O16: in either case the read and the configuration write keep `st`, so the command sees the pre-edge `st`. -/
theorem startBeginsAnAttemptOrSetsOvr : Obligations.StartBeginsAnAttemptOrSetsOvr := by
  intro s rd lo d
  rw [exec_start]
  constructor
  · intro idle
    rw [startCommand_idle (by simpa using idle), writeConfig_idle d (by simpa using idle)]
    rfl
  · intro busy
    rw [startCommand_busy (by simpa using busy), writeConfig_busy d (by simpa using busy)]
    rfl

end Sys2Proof.Machine
end

section
/-! The raw fields of a frame, as concatenations and as numbers (41_decoder.md R157, R158, R164). -/

namespace Sys2Proof.Machine

open Sys2Proof

/-! ### Concatenation -/

/-- A concatenation, read as a number, is the sum of its parts: they occupy disjoint bit ranges. -/
theorem toNat_append_eq_add {m n : Nat} (x : BitVec m) (y : BitVec n) :
    (x ++ y).toNat = x.toNat * 2 ^ n + y.toNat := by
  rw [BitVec.toNat_append, ← Nat.shiftLeft_add_eq_or_of_lt y.isLt, Nat.shiftLeft_eq]

theorem append_eq_append_iff {m n : Nat} {x x' : BitVec m} {y y' : BitVec n} :
    x ++ y = x' ++ y' ↔ x = x' ∧ y = y' := by
  constructor
  · intro h
    have left := congrArg (BitVec.extractLsb' n m) h
    have right := congrArg (BitVec.extractLsb' 0 n) h
    rw [BitVec.extractLsb'_append_eq_left, BitVec.extractLsb'_append_eq_left] at left
    rw [BitVec.extractLsb'_append_eq_right, BitVec.extractLsb'_append_eq_right] at right
    exact ⟨left, right⟩
  · rintro ⟨rfl, rfl⟩
    rfl

/-- A byte is its high nibble and its low nibble. -/
theorem append_nibbles (b : Byte) : (b.extractLsb' 4 4 : BitVec 4) ++ (b.extractLsb' 0 4 : BitVec 4) = b :=
  BitVec.extractLsb'_append_extractLsb' (w := 4) (len := 4) (x := b)

theorem eq_iff_nibbles_eq {a b : Byte} :
    a = b ↔ (a.extractLsb' 4 4 : BitVec 4) = b.extractLsb' 4 4 ∧ (a.extractLsb' 0 4 : BitVec 4) = b.extractLsb' 0 4 := by
  rw [← append_eq_append_iff, append_nibbles, append_nibbles]

/-! ### As numbers -/

theorem rawHumidity_toNat (f : Frame) :
    (rawHumidity f).toNat = f.b1.toNat * 2 ^ 12 + f.b2.toNat * 2 ^ 4 + f.b3.toNat / 2 ^ 4 := by
  have high : (f.b3.extractLsb' 4 4 : BitVec 4).toNat = f.b3.toNat / 2 ^ 4 := by
    have := f.b3.isLt
    rw [BitVec.extractLsb'_toNat, Nat.shiftRight_eq_div_pow]
    omega
  rw [rawHumidity, toNat_append_eq_add, toNat_append_eq_add, high]
  ring

theorem rawTemperature_toNat (f : Frame) :
    (rawTemperature f).toNat = f.b3.toNat % 2 ^ 4 * 2 ^ 16 + f.b4.toNat * 2 ^ 8 + f.b5.toNat := by
  have low : (f.b3.extractLsb' 0 4 : BitVec 4).toNat = f.b3.toNat % 2 ^ 4 := by
    rw [BitVec.extractLsb'_toNat, Nat.shiftRight_zero]
  rw [rawTemperature, toNat_append_eq_add, toNat_append_eq_add, low]
  ring

/-- Settles O52: each field is a concatenation of three parts, and a concatenation is a sum. -/
theorem rawFieldsAreTheSourceFormulas : Obligations.RawFieldsAreTheSourceFormulas :=
  fun f => ⟨rawHumidity_toNat f, rawTemperature_toNat f⟩

/-! ### As a bijection -/

/-- Two humidity fields are equal exactly when the 20 bits they are wired from are. -/
theorem rawHumidity_eq_iff {f g : Frame} :
    rawHumidity f = rawHumidity g ↔
      f.b1 = g.b1 ∧ f.b2 = g.b2 ∧ (f.b3.extractLsb' 4 4 : BitVec 4) = g.b3.extractLsb' 4 4 := by
  rw [rawHumidity, rawHumidity, append_eq_append_iff, append_eq_append_iff, and_assoc]

/-- Two temperature fields are equal exactly when the 20 bits they are wired from are. -/
theorem rawTemperature_eq_iff {f g : Frame} :
    rawTemperature f = rawTemperature g ↔
      (f.b3.extractLsb' 0 4 : BitVec 4) = g.b3.extractLsb' 0 4 ∧ f.b4 = g.b4 ∧ f.b5 = g.b5 := by
  rw [rawTemperature, rawTemperature, append_eq_append_iff, append_eq_append_iff, and_assoc]

/-- The frame with the given raw fields, status byte and checksum byte: the inverse of the wiring of R157 and R158. -/
def frameOfRaw (h t : BitVec 20) (b0 b6 : Byte) : Frame :=
  { b0
    b1 := h.extractLsb' 12 8
    b2 := h.extractLsb' 4 8
    b3 := (h.extractLsb' 0 4 : BitVec 4) ++ (t.extractLsb' 16 4 : BitVec 4)
    b4 := t.extractLsb' 8 8
    b5 := t.extractLsb' 0 8
    b6 }

theorem rawHumidity_frameOfRaw (h t : BitVec 20) (b0 b6 : Byte) : rawHumidity (frameOfRaw h t b0 b6) = h := by
  have upper : (h.extractLsb' 12 8 : Byte) ++ (h.extractLsb' 4 8 : Byte) = (h.extractLsb' 4 16 : BitVec 16) :=
    BitVec.extractLsb'_append_extractLsb'_eq_extractLsb' rfl
  rw [rawHumidity, frameOfRaw, BitVec.extractLsb'_append_eq_left, upper]
  exact BitVec.extractLsb'_append_extractLsb' (w := 16) (len := 4)

theorem rawTemperature_frameOfRaw (h t : BitVec 20) (b0 b6 : Byte) : rawTemperature (frameOfRaw h t b0 b6) = t := by
  have upper : (t.extractLsb' 16 4 : BitVec 4) ++ (t.extractLsb' 8 8 : Byte) = (t.extractLsb' 8 12 : BitVec 12) :=
    BitVec.extractLsb'_append_extractLsb'_eq_extractLsb' rfl
  rw [rawTemperature, frameOfRaw, BitVec.extractLsb'_append_eq_right, upper]
  exact BitVec.extractLsb'_append_extractLsb' (w := 12) (len := 8)

/-- Equal raw fields are equal bytes 1 to 5: the two fields share byte 3 between them, a nibble each. -/
theorem rawFields_eq_iff {f g : Frame} :
    rawHumidity f = rawHumidity g ∧ rawTemperature f = rawTemperature g ↔
      f.b1 = g.b1 ∧ f.b2 = g.b2 ∧ f.b3 = g.b3 ∧ f.b4 = g.b4 ∧ f.b5 = g.b5 := by
  rw [rawHumidity_eq_iff, rawTemperature_eq_iff, eq_iff_nibbles_eq (a := f.b3)]
  simp only [and_assoc]

/-- Settles O53: dependence and injectivity are the two equality rules, and `frameOfRaw` reaches every pair. -/
theorem rawFieldsAreABijection : Obligations.RawFieldsAreABijection := by
  refine ⟨?_, ?_, ?_, fun _ _ => rawFields_eq_iff⟩
  · exact fun _ _ h1 h2 h3 => rawHumidity_eq_iff.2 ⟨h1, h2, h3⟩
  · exact fun _ _ h3 h4 h5 => rawTemperature_eq_iff.2 ⟨h3, h4, h5⟩
  · exact fun h t b0 b6 =>
      ⟨_, _, _, _, _, rawHumidity_frameOfRaw h t b0 b6, rawTemperature_frameOfRaw h t b0 b6⟩

end Sys2Proof.Machine
end

section
/-! The decoder's checks, one rule for each of its answers (41_decoder.md R150, R151). -/

namespace Sys2Proof.Machine

open Sys2Proof

variable {p : Params} {f : Frame} {len : Byte} {crcEn : Bool}

theorem decodeFrame_of_length_ne (hlen : len ≠ 7) : decodeFrame p f len crcEn = .err .length :=
  if_pos hlen

theorem decodeFrame_of_busy (hbusy : f.b0.getLsbD 0 = true) : decodeFrame p f 7 crcEn = .err .busy := by
  simp [decodeFrame, Config.frameLen, -BitVec.getLsbD_eq_getElem, hbusy]

theorem decodeFrame_of_checksum_ne (hbusy : f.b0.getLsbD 0 = false) (hcrc : frameCrc p f ≠ f.b6) :
    decodeFrame p f 7 true = .err .checksum := by
  simp [decodeFrame, Config.frameLen, -BitVec.getLsbD_eq_getElem, hbusy, hcrc]

theorem decodeFrame_of_checks_pass (hbusy : f.b0.getLsbD 0 = false) (hcrc : crcEn = true → frameCrc p f = f.b6) :
    decodeFrame p f 7 crcEn =
      .ok (rawHumidity f) (rawTemperature f) (hum32 (rawHumidity f)) (temp32 p.convEval (rawTemperature f)) := by
  simpa [decodeFrame, Config.frameLen, -BitVec.getLsbD_eq_getElem, hbusy] using hcrc

/-- Settles O51: the four clauses are the decoder's four answers, and `frameCrc` is the checksum of bytes 0 to 5. -/
theorem decoderChecksInOrder : Obligations.DecoderChecksInOrder := by
  intro p f len crcEn
  refine ⟨decodeFrame_of_length_ne, ?_, ?_, ?_⟩
  · rintro rfl hbusy
    exact decodeFrame_of_busy hbusy
  · rintro rfl hbusy rfl hcrc
    exact decodeFrame_of_checksum_ne hbusy hcrc
  · rintro rfl hbusy hcrc
    exact decodeFrame_of_checks_pass hbusy hcrc

end Sys2Proof.Machine
end

section
/-! The conversions as exact integers with a bounded error (42_conversion.md R186, R187). A result is a rounded integer
number of units of 2^-20; the roundings of one conversion move it by at most 16 units in all, while neighbouring raw
codes lie 100 or 200 units apart. -/

namespace Sys2Proof.Machine

open Sys2Proof Sys2Proof.Safety

/-! ### The rounded magnitude -/

/-- From 2^23 on, a rounded magnitude is a 24-bit significand, or the power of two above all of them, scaled by the
unit in the last place. -/
theorem rne24_eq_significand_mul {n : Nat} (hn : 2 ^ 23 ≤ n) :
    ∃ q, 0 < q ∧ q ≤ 2 ^ 24 ∧ rne24 n = q * 2 ^ (n.log2 - 23) := by
  have hlog : 23 ≤ n.log2 := (Nat.le_log2 (by omega)).2 hn
  have hpos : 0 < n / 2 ^ (n.log2 - 23) :=
    Nat.div_pos ((Nat.pow_le_pow_right (by decide) (Nat.sub_le ..)).trans (Nat.log2_self_le (by omega)))
      (Nat.two_pow_pos _)
  have hlt : n / 2 ^ (n.log2 - 23) < 2 ^ 24 := by
    rw [Nat.div_lt_iff_lt_mul (Nat.two_pow_pos _), ← pow_add, show 24 + (n.log2 - 23) = n.log2 + 1 by omega]
    exact Nat.lt_log2_self
  unfold rne24
  exact ⟨_, by split <;> omega, by split <;> omega, rfl⟩

/-- A rounded magnitude has at most 24 significant bits. -/
theorem two_pow_dvd_rne24 {n : Nat} (hpos : 0 < n) : 2 ^ ((rne24 n).log2 - 23) ∣ rne24 n := by
  rcases Nat.lt_or_ge n (2 ^ 24) with hsmall | hlarge
  · have hlog : n.log2 < 24 := (Nat.log2_lt hpos.ne').2 hsmall
    rw [rne24_of_lt hsmall, Nat.sub_eq_zero_of_le (by omega)]
    exact one_dvd n
  · obtain ⟨q, hq0, hq, hr⟩ := rne24_eq_significand_mul (n := n) (by omega)
    have hlog : 24 ≤ n.log2 := (Nat.le_log2 hpos.ne').2 hlarge
    rw [hr]
    rcases hq.lt_or_eq with hlt | rfl
    · have hlog' : (q * 2 ^ (n.log2 - 23)).log2 < 24 + (n.log2 - 23) := by
        rw [Nat.log2_lt (Nat.mul_pos hq0 (Nat.two_pow_pos _)).ne', pow_add]
        exact Nat.mul_lt_mul_of_pos_right hlt (Nat.two_pow_pos _)
      exact (pow_dvd_pow 2 (by omega)).trans (Nat.dvd_mul_left ..)
    · rw [← pow_add, Nat.log2_two_pow]
      exact pow_dvd_pow 2 (by omega)

/-- Below 2^28 units a rounding moves a magnitude by at most 8 units. -/
theorem rne24_near {n : Nat} (hn : n < 2 ^ 28) : rne24 n ≤ n + 8 ∧ n ≤ rne24 n + 8 := by
  rcases Nat.eq_zero_or_pos n with rfl | hpos
  · decide
  · have hlog : n.log2 < 28 := (Nat.log2_lt hpos.ne').2 hn
    have hunit : 2 ^ (n.log2 - 23) ≤ 2 ^ 4 := Nat.pow_le_pow_right (by decide) (by omega)
    have := rne24_error n
    omega

theorem rne24_pos {n : Nat} (hpos : 0 < n) (hn : n < 2 ^ 28) : 0 < rne24 n := by
  rcases Nat.lt_or_ge n (2 ^ 24) with hsmall | hlarge
  · rwa [rne24_of_lt hsmall]
  · have := rne24_near hn
    omega

theorem log2_rne24_lt {n : Nat} (hpos : 0 < n) (hn : n < 2 ^ 28) : (rne24 n).log2 < 29 := by
  have := rne24_near hn
  exact (Nat.log2_lt (rne24_pos hpos hn).ne').2 (by omega)

/-! ### The rounded number -/

/-- The number of units that rounding m units gives: the rounded magnitude with the sign of m. -/
def roundUnits (m : ℤ) : ℤ := if m < 0 then -(rne24 m.natAbs : ℤ) else rne24 m.natAbs

theorem roundUnits_near {m : ℤ} (hm : m.natAbs < 2 ^ 28) : |roundUnits m - m| ≤ 8 := by
  have := rne24_near hm
  rw [roundUnits, abs_le]
  split <;> omega

/-- The pattern that rne32 gives stands for the rounded number of units. -/
theorem f32Value_rne32 {m : ℤ} (hm : m.natAbs < 2 ^ 28) : f32Value (rne32 m 20) = (roundUnits m : ℚ) / 2 ^ 20 := by
  rcases eq_or_ne m 0 with rfl | hne
  · decide +kernel
  · have hpos : 0 < m.natAbs := Int.natAbs_pos.2 hne
    have hlog := log2_rne24_lt hpos hm
    rw [rne32, f32Value_packF32 _ (rne24_pos hpos hm) (two_pow_dvd_rne24 hpos) (by omega) (by omega), roundUnits]
    by_cases hneg : m < 0 <;> simp [hneg, neg_div]

/-- A non-zero magnitude with its exponent in range is packed as a normal number. -/
theorem f32Normal_packF32 (neg : Bool) {n k : Nat} (hn : n ≠ 0) (hk : k < n.log2 + 127) (hk' : n.log2 + 127 - k < 255) :
    f32Normal (packF32 neg n k) = true := by
  rw [packF32, if_neg hn, f32Normal, f32Finite, (f32_fields ..).1]
  simp only [Bool.and_eq_true, bne_iff_ne, BitVec.ofNat_eq_ofNat, ne_eq, ← BitVec.toNat_inj, BitVec.toNat_ofNat]
  omega

/-- What is not exactly zero is rounded to a normal number. -/
theorem f32Normal_rne32 {m : ℤ} (hne : m ≠ 0) (hm : m.natAbs < 2 ^ 28) : f32Normal (rne32 m 20) = true := by
  have hpos : 0 < m.natAbs := Int.natAbs_pos.2 hne
  have hlog := log2_rne24_lt hpos hm
  exact f32Normal_packF32 _ (rne24_pos hpos hm).ne' (by omega) (by omega)

/-- Numbers of units more than 16 apart stay in order when each is rounded. -/
theorem f32Value_rne32_lt {m m' : ℤ} (hm : m.natAbs < 2 ^ 28) (hm' : m'.natAbs < 2 ^ 28) (hgap : m + 16 < m') :
    f32Value (rne32 m 20) < f32Value (rne32 m' 20) := by
  have hlt : roundUnits m < roundUnits m' := by
    have := abs_le.1 (roundUnits_near hm)
    have := abs_le.1 (roundUnits_near hm')
    omega
  rw [f32Value_rne32 hm, f32Value_rne32 hm', div_lt_div_iff_of_pos_right (by positivity)]
  exact_mod_cast hlt

/-! ### The temperature before its last rounding -/

/-- The units of 2^-20 that the last rounding of a temperature takes: STEPWISE_F32 has rounded the product before
(42_conversion.md R183, R184). -/
def tempUnits (ev : ConvEval) (raw : BitVec 20) : ℤ :=
  match ev with
  | .stepwiseF32 => (rne24 (raw.toNat * 200) : ℤ) - 50 * 2 ^ 20
  | .exactThenF32 => ((raw.toNat * 200 : Nat) : ℤ) - 50 * 2 ^ 20

theorem temp32_eq_rne32 (ev : ConvEval) (raw : BitVec 20) : temp32 ev raw = rne32 (tempUnits ev raw) 20 := by
  cases ev <;> rfl

/-- Before the last rounding a temperature is within 8 units of the exact 200 × raw_t − 50 × 2^20. -/
theorem tempUnits_near (ev : ConvEval) (raw : BitVec 20) :
    |tempUnits ev raw - ((raw.toNat : ℤ) * 200 - 50 * 2 ^ 20)| ≤ 8 := by
  have hraw := raw.isLt
  rw [abs_le]
  cases ev with
  | stepwiseF32 =>
    have := rne24_near (n := raw.toNat * 200) (by omega)
    simp only [tempUnits]
    omega
  | exactThenF32 => simp [tempUnits]

theorem tempUnits_natAbs_lt (ev : ConvEval) (raw : BitVec 20) : (tempUnits ev raw).natAbs < 2 ^ 28 := by
  have := raw.isLt
  have := abs_le.1 (tempUnits_near ev raw)
  omega

theorem tempUnits_ne_zero (ev : ConvEval) {raw : BitVec 20} (hraw : raw ≠ 0x40000) : tempUnits ev raw ≠ 0 := by
  have hne : raw.toNat ≠ 0x40000 := fun h => hraw (BitVec.eq_of_toNat_eq h)
  have := abs_le.1 (tempUnits_near ev raw)
  omega

/-! ### Order -/

theorem f32Value_hum32_lt {a b : BitVec 20} (hab : a < b) : f32Value (hum32 a) < f32Value (hum32 b) := by
  have hab' := BitVec.lt_def.1 hab
  exact f32Value_rne32_lt (by omega) (by omega) (by omega)

theorem f32Value_temp32_lt (ev : ConvEval) {a b : BitVec 20} (hab : a < b) :
    f32Value (temp32 ev a) < f32Value (temp32 ev b) := by
  have hab' := BitVec.lt_def.1 hab
  have ha := abs_le.1 (tempUnits_near ev a)
  have hb := abs_le.1 (tempUnits_near ev b)
  rw [temp32_eq_rne32, temp32_eq_rne32]
  exact f32Value_rne32_lt (tempUnits_natAbs_lt ev a) (tempUnits_natAbs_lt ev b) (by omega)

/-- Settles O58: neighbouring raw codes lie further apart than the roundings can move them. -/
theorem conversionsAreStrictlyIncreasing : Obligations.ConversionsAreStrictlyIncreasing :=
  fun _ _ ev hab => ⟨f32Value_hum32_lt hab, f32Value_temp32_lt ev hab⟩

/-- An order-preserving reading of raw codes preserves ≤ as well. -/
theorem le_of_raw_le {v : BitVec 20 → ℚ} (hv : ∀ {a b}, a < b → v a < v b) {a b : BitVec 20} (hab : a ≤ b) :
    v a ≤ v b := by
  rcases eq_or_ne a b with rfl | hne
  · exact le_rfl
  · exact (hv (by bv_omega)).le

theorem f32Value_hum32_mono {a b : BitVec 20} (hab : a ≤ b) : f32Value (hum32 a) ≤ f32Value (hum32 b) :=
  le_of_raw_le (v := fun raw => f32Value (hum32 raw)) f32Value_hum32_lt hab

theorem f32Value_temp32_mono (ev : ConvEval) {a b : BitVec 20} (hab : a ≤ b) :
    f32Value (temp32 ev a) ≤ f32Value (temp32 ev b) :=
  le_of_raw_le (v := fun raw => f32Value (temp32 ev raw)) (f32Value_temp32_lt ev) hab

/-! ### Ranges

The conversions are increasing, so each bound of R186 is the value at one raw code: the two ends of the range, and the
neighbours of the code that gives zero. -/

theorem hum32_zero : hum32 0 = 0 := by decide

theorem hum32_min : f32Value (hum32 0) = 0 := by rw [hum32_zero]; decide +kernel

theorem hum32_smallest : f32Value (hum32 1) = 100 / 2 ^ 20 := by decide +kernel

theorem hum32_max : hum32 0xFFFFF = 0x42C7FFF4 := by decide +kernel

section
variable (ev : ConvEval)

theorem temp32_min : f32Value (temp32 ev 0) = -50 := by cases ev <;> decide +kernel

theorem temp32_largest_negative : f32Value (temp32 ev 0x3FFFF) = -(200 / 2 ^ 20) := by cases ev <;> decide +kernel

theorem temp32_zero : temp32 ev 0x40000 = 0 := by cases ev <;> decide +kernel

theorem temp32_smallest_positive : f32Value (temp32 ev 0x40001) = 200 / 2 ^ 20 := by cases ev <;> decide +kernel

theorem temp32_max : temp32 ev 0xFFFFF = 0x4315FFF4 := by cases ev <;> decide +kernel

end

theorem hum32_range (raw : BitVec 20) : 0 ≤ f32Value (hum32 raw) ∧ f32Value (hum32 raw) ≤ f32Value 0x42C7FFF4 := by
  rw [← hum32_min, ← hum32_max]
  exact ⟨f32Value_hum32_mono (by bv_omega), f32Value_hum32_mono (by bv_omega)⟩

theorem temp32_range (ev : ConvEval) (raw : BitVec 20) :
    -50 ≤ f32Value (temp32 ev raw) ∧ f32Value (temp32 ev raw) ≤ f32Value 0x4315FFF4 := by
  rw [← temp32_min ev, ← temp32_max ev]
  exact ⟨f32Value_temp32_mono ev (by bv_omega), f32Value_temp32_mono ev (by bv_omega)⟩

theorem hum32_of_ne_zero {raw : BitVec 20} (hraw : raw ≠ 0) :
    f32Normal (hum32 raw) = true ∧ 100 / 2 ^ 20 ≤ f32Value (hum32 raw) := by
  have hpos : 0 < raw.toNat := by bv_omega
  refine ⟨f32Normal_rne32 (by omega) (by omega), ?_⟩
  rw [← hum32_smallest]
  exact f32Value_hum32_mono (BitVec.le_def.2 hpos)

theorem temp32_of_ne_zero (ev : ConvEval) {raw : BitVec 20} (hraw : raw ≠ 0x40000) :
    f32Normal (temp32 ev raw) = true ∧ 200 / 2 ^ 20 ≤ |f32Value (temp32 ev raw)| := by
  constructor
  · rw [temp32_eq_rne32]
    exact f32Normal_rne32 (tempUnits_ne_zero ev hraw) (tempUnits_natAbs_lt ev raw)
  · rw [le_abs']
    have hside : raw < 0x40000 ∨ 0x40000 < raw := by bv_omega
    rcases hside with hlt | hgt
    · left
      rw [← temp32_largest_negative ev]
      exact f32Value_temp32_mono ev (by bv_omega)
    · right
      rw [← temp32_smallest_positive ev]
      exact f32Value_temp32_mono ev (by bv_omega)

/-- Settles O59: the bounds are values at single raw codes, and only an exact zero is not rounded to a normal number. -/
theorem conversionsStayInRange : Obligations.ConversionsStayInRange := by
  refine ⟨fun raw ev => ⟨hum32_range raw, temp32_range ev raw, ?_, ?_⟩, hum32_smallest, temp32_smallest_positive⟩
  · split
    next h => rw [h]; exact hum32_zero
    next h => exact hum32_of_ne_zero h
  · split
    next h => rw [h]; exact temp32_zero ev
    next h => exact temp32_of_ne_zero ev h

end Sys2Proof.Machine
end

section
/-! The host operations that run no command: the configuration write (43_host_ops.md R302), and the three that touch the
read port alone (R300, R301, R308). -/

namespace Sys2Proof.Machine

open Sys2Proof

/-- CTRL_CFG is its read, then the configuration fields of its data, and no command follows. -/
theorem exec_ctrlCfg (rd : Bool) (lo : BitVec 2) (d : Reg32) (s : State) :
    exec (.ctrlCfg rd lo d) s = .next (writeConfig d (hostRead rd (offsetOf 0x00 lo) s)) := rfl

/-- Settles O18: the read keeps `st`, so the pre-edge `st` decides whether the write takes all three fields or IE alone. -/
theorem ctrlCfgWritesConfiguration : Obligations.CtrlCfgWritesConfiguration := by
  intro s rd lo d
  rw [exec_ctrlCfg]
  by_cases idle : s.st = .idle
  · rw [writeConfig_idle d (by simpa using idle), if_pos idle, if_pos idle]
    rfl
  · rw [writeConfig_busy d (by simpa using idle), if_neg idle, if_neg idle]
    rfl

/-- With R = 0 the read port keeps its data and drops its valid bit (10_state.md R46). -/
theorem hostRead_false (a : Byte) (s : State) : hostRead false a s = { s with hRvalid := false } := rfl

/-- With R = 1 the read port takes the addressed register and is valid (10_state.md R46). -/
theorem hostRead_true (a : Byte) (s : State) : hostRead true a s = { s with hRdata := memRead s a, hRvalid := true } := rfl

theorem exec_nop (a : Byte) (d : Reg32) (s : State) : exec (.nop a d) s = .next (hostRead false a s) := rfl

theorem exec_regRd (a : Byte) (d : Reg32) (s : State) : exec (.regRd a d) s = .next (hostRead true a s) := rfl

/-- A write to a read-only or reserved offset is the read of its word and nothing more. -/
theorem exec_regWrIgnored (rd : Bool) (a : Byte) (d : Reg32) (s : State) :
    exec (.regWrIgnored rd a d) s = .next (hostRead rd a s) := rfl

/-- Settles O22: each of the three is a host read and nothing else, and a host read writes the read port alone. -/
theorem nopReadAndIgnoredWrite : Obligations.NopReadAndIgnoredWrite := by
  intro s rd a d
  refine ⟨?nop, ?read, ?ignoredWrite⟩
  case nop => rw [exec_nop, hostRead_false]
  case read => rw [exec_regRd, hostRead_true]
  case ignoredWrite => rw [exec_regWrIgnored, hostRead]

end Sys2Proof.Machine
end

section
/-! How a command finishes: an edge outside IDLE as one rule of the sequencer, what the rules that reach IDLE leave in
the status registers (40_sequencer.md R120, R121), and what STATUS then reads (60_exceptions.md R209). -/

namespace Sys2Proof.Machine

open Sys2Proof

/-! ### An edge outside IDLE -/

/-- The pre-edge state chooses the state rule by `st` and the input ports alone. -/
theorem sequencerEdge_congr {p c : State} (hst : c.st = p.st) (hinp : c.inp = p.inp) :
    sequencerEdge p c = sequencerEdge c c := by
  simp only [sequencerEdge, busInstr, hst, hinp]

/-- Outside IDLE an edge follows one rule, on the state that the host operation leaves: the pre-edge one with
`cancel_q` dropped and new flags. -/
theorem edge_busy_rule {p t : State} (run : p.inp.rst = false) (busy : p.st ≠ .idle) (hedge : edge p = .next t) :
    ∃ ie ovr done rdata rvalid, SeqRule (withHostFlags { p with cancelQ := false } ie ovr done rdata rvalid) t := by
  obtain ⟨ie, ovr, done, rdata, rvalid, host⟩ := hostInstr_busy (s := { p with cancelQ := false }) busy p
  obtain ⟨q, next, rule⟩ :=
    sequencerEdge_rule (p := withHostFlags { p with cancelQ := false } ie ovr done rdata rvalid) busy
  have hq : edge p = .next q := by rw [edge_run run host, ← next]; exact sequencerEdge_congr rfl rfl
  cases hedge.symm.trans hq
  exact ⟨ie, ovr, done, rdata, rvalid, rule⟩

/-! ### The rules that reach IDLE -/

/-- ERR_CODE = NONE stands for no error (30_encoding.md R87). -/
theorem ProtocolError.code_ne_zero (e : ProtocolError) : e.code ≠ 0 := by
  cases e <;> decide

/-- An error that leads to IDLE ends the command, with its code recorded. -/
theorem raise_of_idle {e : ProtocolError} {s : State} (idle : (raise e s).st = .idle) :
    (raise e s).done = true ∧ (raise e s).errCode ≠ 0 := by
  rcases raise_cases e s with ⟨-, -, retry⟩ | ⟨-, finish⟩
  · simp [retry] at idle
  · rw [finish]
    exact ⟨rfl, e.code_ne_zero⟩

/-- A rule that reaches IDLE sets DONE, and with ERR_CODE = NONE it is the success: the error record is clear and the
results are valid. -/
theorem SeqRule.finish {p t : State} (rule : SeqRule p t) (busy : p.st ≠ .idle) (idle : t.st = .idle) :
    t.done = true ∧ (t.errCode = 0 → t.valid = true ∧ t.errCause = 0 ∧ t.errState = 0) := by
  cases rule with
  | decoded => exact ⟨rfl, fun _ => ⟨rfl, rfl, rfl⟩⟩
  | timeout | errorResponse | decodeError =>
    obtain ⟨done, code⟩ := raise_of_idle idle
    exact ⟨done, fun noError => absurd noError code⟩
  | stuck | settling => exact absurd idle busy
  | waitRequest | waitResponse => exact absurd (by rwa [countDown_eq] at idle) busy
  | acceptBind | acceptWrite | acceptRead | bindDone | writeDone | readDone | settled => cases idle

/-! ### STATUS after the command -/

/-- STATUS is the disjunction of its fields, each shifted to its place (10_state.md R37), here in R209's order. -/
theorem statusValue_eq_or (s : State) :
    statusValue s =
      ((BitVec.ofBool s.done).setWidth 32 <<< 1) ||| ((BitVec.ofBool s.valid).setWidth 32 <<< 3) |||
        (s.errCode.setWidth 32 <<< 4) ||| (s.errCause.setWidth 32 <<< 8) ||| (s.errState.setWidth 32 <<< 12) |||
        (s.attempt.setWidth 32 <<< 16) ||| ((BitVec.ofBool s.ovr).setWidth 32 <<< 2) |||
        (s.st.code.setWidth 32 <<< 24) ||| (BitVec.ofBool s.busy).setWidth 32 := by
  rw [← BitVec.setWidth_eq (statusValue s), statusValue]
  simp only [BitVec.setWidth_append_eq_shiftLeft_setWidth_or, BitVec.shiftLeft_or_distrib, ← BitVec.shiftLeft_add]
  simp only [Nat.reduceAdd, BitVec.ofNat_eq_ofNat, BitVec.setWidth_zero, BitVec.zero_shiftLeft, BitVec.zero_or,
    BitVec.or_zero]
  ext i
  simp only [BitVec.getElem_or]
  ac_rfl

/-- With DONE = 1 in IDLE, BUSY and STATE are 0. -/
theorem memRead_status_of_finished {s : State} (idle : s.st = .idle) (done : s.done = true) :
    memRead s 0x04 =
      0x00000002 ||| ((BitVec.ofBool s.valid).setWidth 32 <<< 3) ||| (s.errCode.setWidth 32 <<< 4) |||
        (s.errCause.setWidth 32 <<< 8) ||| (s.errState.setWidth 32 <<< 12) ||| (s.attempt.setWidth 32 <<< 16) |||
        ((BitVec.ofBool s.ovr).setWidth 32 <<< 2) := by
  have busy : s.busy = false := by simp [State.busy, idle]
  have status : memRead s 0x04 = statusValue s := rfl
  rw [status, statusValue_eq_or, idle, done, busy]
  simp [St.code]

/-- Settles O45: a rule that reaches IDLE sets DONE, so STATUS is R209's final-error value; a success fixes the four
fields that turn it into R209's other value. -/
theorem statusAfterACommandFinishes : Obligations.StatusAfterACommandFinishes := by
  intro s t x rest _ script run busy hstep idle
  rw [step, loadInputs_cons script] at hstep
  obtain ⟨_, _, _, _, _, rule⟩ := edge_busy_rule (p := { s with inp := x, script := rest }) run busy hstep
  obtain ⟨done, success⟩ := rule.finish busy idle
  rw [memRead_status_of_finished idle done]
  split
  next noError =>
    obtain ⟨valid, cause, errState⟩ := success noError
    simp [noError, valid, cause, errState]
  next => rfl

end Sys2Proof.Machine
end

section
/-! What the output ports carry after a reset edge and while `rst` is held (70_reset_and_hazards.md R230, R231). -/

namespace Sys2Proof.Machine

open Sys2Proof Sys2Proof.Safety

/-- A run goes on from the state its first step leads to. -/
theorem runFor_succ {s t : State} (n : Nat) (hstep : step s = .next t) : runFor (n + 1) s = runFor n t := by
  simp only [runFor, hstep]

/-- A scripted cycle with `rst` = 1 is the reset edge, and nothing else happens in it (60_exceptions.md R205 item 1). -/
theorem step_rst {s : State} {x : Inputs} {rest : List Inputs} (script : s.script = x :: rest) (rst : x.rst = true) :
    step s = .next (resetEdge { s with inp := x, script := rest }) := by
  rw [step, loadInputs_cons script]
  exact edge_rst rst

/-- Every output port is a function of registers that reset clears (10_state.md R44 to R47). -/
theorem resetEdge_outputs (s : State) :
    (resetEdge s).outputs =
      { hRdata := 0, hRvalid := false, irq := false, bReqValid := false, bReqOp := 0, bReqAddr := 0, bReqLen := 0,
        bReqWdata := 0, bCancel := false } := rfl

/-- While the script holds `rst` at 1, the state a run has reached is one that a reset edge left. -/
theorem runFor_succ_eq_resetEdge (n : Nat) (s : State) (scripted : n < s.script.length)
    (held : ∀ x ∈ s.script.take (n + 1), x.rst = true) : ∃ p, runFor (n + 1) s = resetEdge p := by
  induction n generalizing s with
  | zero =>
    obtain ⟨x, rest, script⟩ := List.exists_cons_of_length_pos scripted
    rw [script] at held
    exact ⟨_, runFor_succ 0 (step_rst script (held x List.mem_cons_self))⟩
  | succ n ih =>
    obtain ⟨x, rest, script⟩ := List.exists_cons_of_length_pos (Nat.zero_lt_of_lt scripted)
    rw [script, List.take_succ_cons, List.forall_mem_cons] at held
    obtain ⟨now, later⟩ := held
    rw [script, List.length_cons] at scripted
    rw [runFor_succ (n + 1) (step_rst script now)]
    exact ih _ (Nat.lt_of_succ_lt_succ scripted) later

/-- Settles O2: after n + 1 cycles of held reset the state is one that a reset edge left, whatever came before. -/
theorem outputsAreQuietAfterReset : Obligations.OutputsAreQuietAfterReset := by
  intro n s scripted held
  obtain ⟨p, reached⟩ := runFor_succ_eq_resetEdge n s scripted held
  rw [reached, resetEdge_outputs]

end Sys2Proof.Machine
end

section
/-! Encoder and decoder are inverse: on the well-formed instructions (30_encoding.md R80 to R84), and on the words of
the ports (R89, R92). -/

namespace Sys2Proof

/-! ### The word of an instruction -/

/-- The ignored low bits of an offset do not choose the register. -/
theorem ofOffset_offsetOf (i : BitVec 6) (lo : BitVec 2) :
    HostReg.ofOffset (offsetOf i lo) = HostReg.ofOffset (offsetOf i 0) := by
  simp only [HostReg.ofOffset, offsetOf_index]

/-- The word indices of REG_WR_IGNORED are those of the registers without a write effect. -/
theorem isIgnoredIndex_iff (a : Byte) :
    isIgnoredIndex (wordIndex a) = true ↔
      HostReg.ofOffset a ∈ [HostReg.temp, .hum, .rawHum, .rawTemp, .crc, .info, .reserved] := by
  revert a; decide

theorem decodeHostFields_ignored {a : Byte} (ignored : isIgnoredIndex (wordIndex a) = true) (rd : Bool) (d : Reg32) :
    decodeHostFields true rd a d = .regWrIgnored rd a d := by
  rw [isIgnoredIndex_iff] at ignored
  rw [decodeHostFields]
  cases hr : HostReg.ofOffset a <;> simp [hr] at ignored ⊢

/-- Settles O11: each form of word is decoded by its fields, and the bits a row fixes choose the row. -/
theorem decodeOfEncodeIsTheInstruction : Obligations.DecodeOfEncodeIsTheInstruction := by
  intro i wf
  cases i with
  | start rd lo d | decode rd lo d | ctrlCfg rd lo d =>
    simp only [Instr.WellFormed, Instr.wf, Bool.and_eq_true, Bool.not_eq_true'] at wf
    have ctrl : HostReg.ofOffset (offsetOf 0x00 lo) = .ctrl := ofOffset_offsetOf 0x00 lo
    simp only [encode, decode, decodeHost_hostWord, decodeHostFields, ctrl, offsetOf_lo, wf]
  | statusW1c rd lo d | frameLoWr rd lo d | frameHiWr rd lo d | frameLenWr rd lo d | timeoutWr rd lo d =>
    simp only [encode, decode, decodeHost_hostWord, decodeHostFields, offsetOf_lo]
    rw [ofOffset_offsetOf _ lo]
    rfl
  | regWrIgnored rd a d =>
    simp only [encode, decode, decodeHost_hostWord, decodeHostFields_ignored wf]
  | regRd a d | nop a d => exact congrArg Except.ok (decodeHost_hostWord ..)
  | bind | writeTrigger | readFrame => rfl
  | rspOk n data | rspErr n data | rspData n data => exact congrArg Except.ok (decodeRsp_rspWord ..)

/-! ### The words of the ports -/

/-- What the fields of a HOSTOP word decode to is well formed, and its word has these fields. -/
theorem decodeHostFields_spec (wr rd : Bool) (a : Byte) (d : Reg32) :
    (decodeHostFields wr rd a d).WellFormed ∧ encode (decodeHostFields wr rd a d) = .hostop (hostWord wr rd a d) := by
  have index := ofOffset_index a
  have ignored := isIgnoredIndex_iff a
  unfold decodeHostFields
  split
  · exact ⟨rfl, rfl⟩
  · exact ⟨rfl, rfl⟩
  · cases hr : HostReg.ofOffset a <;> simp only [hr] at index ignored ⊢
    case ctrl =>
      have word : offsetOf 0x00 (a.extractLsb' 0 2) = a := offsetOf_of_fields a 0x00 index
      split
      next start => exact ⟨start, by rw [encode, word]⟩
      next noStart command => exact ⟨by rw [Instr.WellFormed, Instr.wf, noStart, command]; rfl, by rw [encode, word]⟩
      next noStart noCommand => exact ⟨by rw [Instr.WellFormed, Instr.wf, noStart, noCommand]; rfl, by rw [encode, word]⟩
    case status => exact ⟨rfl, by rw [encode, offsetOf_of_fields a 0x01 index]⟩
    case frameLo => exact ⟨rfl, by rw [encode, offsetOf_of_fields a 0x06 index]⟩
    case frameHi => exact ⟨rfl, by rw [encode, offsetOf_of_fields a 0x07 index]⟩
    case frameLen => exact ⟨rfl, by rw [encode, offsetOf_of_fields a 0x08 index]⟩
    case timeout => exact ⟨rfl, by rw [encode, offsetOf_of_fields a 0x0A index]⟩
    all_goals exact ⟨ignored.2 (by decide), rfl⟩

/-- A BUSRSP word is its three fields. -/
theorem rspWord_of_fields (w : RspWord) :
    rspWord (w.getLsbD 64) (w.extractLsb' 56 8) (w.extractLsb' 0 56) = w := by
  apply BitVec.eq_of_getLsbD_eq
  intro i hi
  simp only [rspWord, BitVec.getLsbD_append, BitVec.getLsbD_ofBool, BitVec.getLsbD_extractLsb']
  obtain rfl | h : i = 64 ∨ i < 64 := by omega
  · simp
  · grind

/-- A BUSREQ word is its four fields. -/
theorem reqWord_of_fields (w : ReqWord) :
    reqWord (w.extractLsb' 35 2) (w.extractLsb' 27 8) (w.extractLsb' 24 3) (w.extractLsb' 0 24) = w := by
  apply BitVec.eq_of_toNat_eq
  have := w.isLt
  simp only [reqWord, Machine.toNat_append_eq_add, BitVec.extractLsb'_toNat, Nat.shiftRight_eq_div_pow]
  omega

/-- Settles O12: a port word is its fields, and each form keeps all of them as operands. -/
theorem everyPortWordIsOneInstruction : Obligations.EveryPortWordIsOneInstruction := by
  constructor
  · intro w
    rw [← hostWord_of_fields w, decodeHost_hostWord]
    exact decodeHostFields_spec ..
  · intro reading w
    rw [← rspWord_of_fields w, decodeRsp_rspWord]
    cases w.getLsbD 64 <;> cases reading <;> rfl

/-- Kind 0b11 is refused by its own name (30_encoding.md R83, R92). -/
theorem decodeReq_reserved {w : ReqWord} (kind : w.extractLsb' 35 2 = (0b11 : BitVec 2)) :
    decodeReq w = .error .reservedBusOp := by
  simp only [decodeReq, kind]; rfl

/-- A kind's check of the three other fields leaves one word. -/
theorem reqWord_of_check {w : ReqWord} {op : BitVec 2} {addr : Byte} {len : BitVec 3} {data : BitVec 24} {i j : Instr}
    (kind : (w.extractLsb' 35 2 : BitVec 2).toNat = op.toNat)
    (check : (if w.extractLsb' 27 8 = addr ∧ w.extractLsb' 24 3 = len ∧ w.extractLsb' 0 24 = data then .ok j
      else .error .notABlockRequest : Except DecodeError Instr) = .ok i) : w = reqWord op addr len data ∧ i = j := by
  split at check
  next fields =>
    obtain ⟨rfl, rfl, rfl⟩ := fields
    cases check
    rw [← BitVec.eq_of_toNat_eq kind]
    exact ⟨(reqWord_of_fields w).symm, rfl⟩
  next => cases check

/-- Settles O13: kind, address, length and data are the whole word, so each kind's check leaves one word. -/
theorem onlyThreeRequestWordsDecode : Obligations.OnlyThreeRequestWordsDecode := by
  refine ⟨fun w i => ⟨fun decoded => ?_, ?_⟩, fun _ => decodeReq_reserved⟩
  · rw [decodeReq] at decoded
    split at decoded
    next kind => exact .inl (reqWord_of_check (op := 0b00) kind decoded)
    next kind => exact .inr (.inl (reqWord_of_check (op := 0b01) kind decoded))
    next kind => exact .inr (.inr (reqWord_of_check (op := 0b10) kind decoded))
    next => cases decoded
  · rintro (⟨rfl, rfl⟩ | ⟨rfl, rfl⟩ | ⟨rfl, rfl⟩) <;> rfl

/-- Settles O14: each word is evaluated by its decoder. -/
theorem writtenOutWordsDecode : Obligations.WrittenOutWordsDecode := by
  refine ⟨?_, ?_, ?_, ?_, ?_, ?_, ?_, ?_, ?_, ?_⟩ <;> rfl

end Sys2Proof
end

section
/-! The host operation of a cycle as one function of the host port's fields: a read, then the write effect of the
addressed register (20_memory.md R62 to R64, 43_host_ops.md R300 to R308). -/

namespace Sys2Proof.Machine

open Sys2Proof

/-! ### The operations that write -/

/-- The write effect of the register at an offset (20_memory.md R63). -/
def hostWrite (a : Byte) (d : Reg32) (s : State) : State :=
  match HostReg.ofOffset a with
  | .ctrl =>
    if d.getLsbD 0 then startCommand (writeConfig d s)
    else if d.getLsbD 1 then decodeCommand (writeConfig d s)
    else writeConfig d s
  | .status => writeStatus d s
  | .frameLo => writeFrameLo d s
  | .frameHi => writeFrameHi d s
  | .frameLen => writeFrameLen d s
  | .timeout => writeTimeout d s
  | .temp | .hum | .rawHum | .rawTemp | .crc | .info | .reserved => s

/-- What the host port does to the state in a cycle with these fields. -/
def hostEffect (wr rd : Bool) (a : Byte) (d : Reg32) (s : State) : State :=
  if wr then hostWrite a d (hostRead rd a s) else hostRead rd a s

/-- The decoded host operation is that function of the port's fields. -/
theorem exec_decodeHostFields (wr rd : Bool) (a : Byte) (d : Reg32) (s : State) :
    exec (decodeHostFields wr rd a d) s = .next (hostEffect wr rd a d s) := by
  have index := ofOffset_index a
  unfold decodeHostFields
  split
  · rfl
  · rfl
  · rw [hostEffect, if_pos rfl, hostWrite]
    cases hr : HostReg.ofOffset a <;> simp only [hr] at index ⊢
    case ctrl =>
      have word : offsetOf 0x00 (a.extractLsb' 0 2) = a := offsetOf_of_fields a 0x00 index
      split
      next start => rw [exec, execStart, word, if_pos start]
      next noStart command => simp only [exec, execDecode, word, noStart, command]; rfl
      next noStart noCommand => simp only [exec, execCtrlCfg, word, noStart, noCommand]; rfl
    case status => rw [exec, execStatusW1c, offsetOf_of_fields a 0x01 index]
    case frameLo => rw [exec, execFrameLoWr, offsetOf_of_fields a 0x06 index]
    case frameHi => rw [exec, execFrameHiWr, offsetOf_of_fields a 0x07 index]
    case frameLen => rw [exec, execFrameLenWr, offsetOf_of_fields a 0x08 index]
    case timeout => rw [exec, execTimeoutWr, offsetOf_of_fields a 0x0A index]
    all_goals rfl

theorem exec_hostInstr (p s : State) :
    exec (hostInstr p) s = .next (hostEffect p.inp.hWr p.inp.hRd p.inp.hAddr p.inp.hWdata s) := by
  rw [hostInstr_eq, exec_decodeHostFields]

/-! ### What a write effect leaves alone -/

theorem hostWrite_readPort (a : Byte) (d : Reg32) (s : State) :
    (hostWrite a d s).hRdata = s.hRdata ∧ (hostWrite a d s).hRvalid = s.hRvalid := by
  unfold hostWrite startCommand decodeCommand writeFrameLo writeFrameHi writeFrameLen writeTimeout
  repeat' split
  all_goals exact ⟨rfl, rfl⟩

/-- Settles O23: the read comes first, and no write effect touches the read port. -/
theorem hostReadReturnsPreEdgeValue : Obligations.HostReadReturnsPreEdgeValue := by
  intro s wr rd a d
  refine ⟨_, by rw [decodeHost_hostWord, exec_decodeHostFields], ?_⟩
  obtain ⟨data, valid⟩ := hostWrite_readPort a d (hostRead rd a s)
  cases wr with
  | false => exact ⟨rfl, rfl⟩
  | true => exact ⟨valid, data⟩

/-- Settles O24: the word is the one of a cycle's host port, and outside IDLE a host operation writes its flags alone. -/
theorem hostOperationsWhileBusyTouchOnlyFlags : Obligations.HostOperationsWhileBusyTouchOnlyFlags := by
  intro s w busy
  have := hostInstr_busy busy { s with inp := Inputs.ofHostWord w }
  rwa [hostInstr, show Inputs.hostWord (Inputs.ofHostWord w) = w from hostWord_of_fields w] at this

/-! ### The single operations -/

theorem exec_decode (rd : Bool) (lo : BitVec 2) (d : Reg32) (s : State) :
    exec (.decode rd lo d) s = .next (decodeCommand (writeConfig d (hostRead rd (offsetOf 0x00 lo) s))) := rfl

theorem exec_statusW1c (rd : Bool) (lo : BitVec 2) (d : Reg32) (s : State) :
    exec (.statusW1c rd lo d) s = .next (writeStatus d (hostRead rd (offsetOf 0x01 lo) s)) := rfl

theorem exec_frameLoWr (rd : Bool) (lo : BitVec 2) (d : Reg32) (s : State) :
    exec (.frameLoWr rd lo d) s = .next (writeFrameLo d (hostRead rd (offsetOf 0x06 lo) s)) := rfl

theorem exec_frameHiWr (rd : Bool) (lo : BitVec 2) (d : Reg32) (s : State) :
    exec (.frameHiWr rd lo d) s = .next (writeFrameHi d (hostRead rd (offsetOf 0x07 lo) s)) := rfl

theorem exec_frameLenWr (rd : Bool) (lo : BitVec 2) (d : Reg32) (s : State) :
    exec (.frameLenWr rd lo d) s = .next (writeFrameLen d (hostRead rd (offsetOf 0x08 lo) s)) := rfl

theorem exec_timeoutWr (rd : Bool) (lo : BitVec 2) (d : Reg32) (s : State) :
    exec (.timeoutWr rd lo d) s = .next (writeTimeout d (hostRead rd (offsetOf 0x0A lo) s)) := rfl

/-- Settles O17: as for START, the command sees the pre-edge `st`. -/
theorem decodeEntersDecodeOrSetsOvr : Obligations.DecodeEntersDecodeOrSetsOvr := by
  intro s rd lo d
  rw [exec_decode]
  constructor
  · intro idle
    rw [decodeCommand_idle (by simpa using idle), writeConfig_idle d (by simpa using idle)]
    rfl
  · intro busy
    rw [decodeCommand_busy (by simpa using busy), writeConfig_busy d (by simpa using busy)]
    rfl

/-- Settles O19: a flag stays set when the write's bit is 0. -/
theorem statusWriteClearsByOnes : Obligations.StatusWriteClearsByOnes := by
  intro s rd lo d
  rw [exec_statusW1c, writeStatus]
  cases d.getLsbD 1 <;> cases d.getLsbD 2 <;> simp [hostRead]

/-- Settles O20: each of the four takes its bits of the data in IDLE, which the read keeps. -/
theorem frameAndTimeoutWritesInIdle : Obligations.FrameAndTimeoutWritesInIdle := by
  intro s rd lo d idle
  have kept : ∀ a, (hostRead rd a s).st = .idle := fun _ => idle
  refine ⟨?_, ?_, ?_, ?_⟩
  · rw [exec_frameLoWr, writeFrameLo_idle d (kept _)]; rfl
  · rw [exec_frameHiWr, writeFrameHi_idle d (kept _)]; rfl
  · rw [exec_frameLenWr, writeFrameLen_idle d (kept _)]; rfl
  · rw [exec_timeoutWr, writeTimeout_idle d (kept _)]; rfl

/-- Settles O21: outside IDLE only the read of the word is left. -/
theorem frameAndTimeoutWritesIgnoredWhileBusy : Obligations.FrameAndTimeoutWritesIgnoredWhileBusy := by
  intro s rd lo d busy
  have kept : ∀ a, (hostRead rd a s).st ≠ .idle := fun _ => busy
  refine ⟨?_, ?_, ?_, ?_⟩
  · rw [exec_frameLoWr, writeFrameLo_busy d (kept _)]; rfl
  · rw [exec_frameHiWr, writeFrameHi_busy d (kept _)]; rfl
  · rw [exec_frameLenWr, writeFrameLen_busy d (kept _)]; rfl
  · rw [exec_timeoutWr, writeTimeout_busy d (kept _)]; rfl

end Sys2Proof.Machine
end

section
/-! What the host registers read as, field by field (10_state.md R32 to R43, 20_memory.md R61, R65). -/

namespace Sys2Proof.Machine

open Sys2Proof

/-- A field above the right part of a concatenation is a field of the left part. -/
theorem extractLsb'_append_left {m n : Nat} (x : BitVec m) (y : BitVec n) {k len : Nat} (h : n ≤ k) :
    (x ++ y).extractLsb' k len = x.extractLsb' (k - n) len := by
  apply BitVec.eq_of_getLsbD_eq
  intro i hi
  simp only [BitVec.getLsbD_extractLsb', BitVec.getLsbD_append, show ¬ k + i < n by omega, if_false,
    show k + i - n = k - n + i by omega]

/-- Settles O25: STATUS is a concatenation; a flag is one of its bits, and a field is what is left on the right once the
parts below it are taken off. -/
theorem statusReadsItsFields : Obligations.StatusReadsItsFields := by
  rintro s _ rfl
  have status : memRead s 0x04 = statusValue s := rfl
  have busy : s.busy = decide (s.st ≠ .idle) := by simp only [State.busy, ne_eq, decide_not]; rfl
  rw [status, statusValue, busy]
  refine ⟨?busy, ?done, ?ovr, ?valid, ?errCode, ?bit7, ?errCause, ?bit11, ?errState, ?attempt, ?bits20, ?state, ?bits28⟩
  case busy | done | ovr | valid | bit7 | bit11 => simp only [BitVec.getLsbD_append]; simp
  case bits28 => simp (disch := decide) only [extractLsb'_append_left, Nat.reduceSub]; rfl
  all_goals
    simp (disch := decide) only [extractLsb'_append_left, Nat.reduceSub]
    exact BitVec.extractLsb'_append_eq_right

theorem toNat_zero_append {m n : Nat} (y : BitVec n) : ((0 : BitVec m) ++ y).toNat = y.toNat := by
  rw [toNat_append_eq_add, BitVec.ofNat_eq_ofNat, BitVec.toNat_ofNat, Nat.zero_mod, Nat.zero_mul, Nat.zero_add]

/-- Bit by bit: CTRL shows its three fields and zeros (10_state.md R32). -/
theorem ctrlValue_getLsbD (s : State) {k : Nat} (hk : k < 32) :
    (ctrlValue s).getLsbD k =
      if k = 3 then s.crcEn else if k = 4 then s.ie else if 8 ≤ k ∧ k < 12 then s.maxRetry.getLsbD (k - 8) else false := by
  rw [ctrlValue]
  simp only [BitVec.getLsbD_append]
  interval_cases k <;> simp

theorem frameLo_toNat (f : Frame) :
    f.lo.toNat = f.b0.toNat + 2 ^ 8 * f.b1.toNat + 2 ^ 16 * f.b2.toNat + 2 ^ 24 * f.b3.toNat := by
  simp only [Frame.lo, toNat_append_eq_add]
  omega

theorem frameHi_toNat (f : Frame) : f.hi.toNat = f.b4.toNat + 2 ^ 8 * f.b5.toNat + 2 ^ 16 * f.b6.toNat := by
  simp only [Frame.hi, toNat_append_eq_add, BitVec.ofNat_eq_ofNat, BitVec.toNat_ofNat]
  omega

theorem crcValue_toNat (s : State) :
    (crcValue s).toNat = (frameCrc s.cfg s.frame).toNat + 2 ^ 8 * s.frame.b6.toNat +
      (if frameCrc s.cfg s.frame = s.frame.b6 then 2 ^ 16 else 0) := by
  simp only [crcValue, toNat_append_eq_add, BitVec.ofNat_eq_ofNat, BitVec.toNat_ofNat, BitVec.toNat_ofBool]
  split
  next received => rw [beq_iff_eq.2 received, Bool.toNat_true]; omega
  next wrong => rw [beq_eq_false_iff_ne.2 wrong, Bool.toNat_false]; omega

theorem infoValue_eq : infoValue = 0x01500738 := by decide

/-- Settles O26: each offset reads its register's value, and each value is its fields. -/
theorem hostRegistersReadTheirFields : Obligations.HostRegistersReadTheirFields := fun s =>
  ⟨fun _ hk => ctrlValue_getLsbD s hk, rfl, rfl, toNat_zero_append _, toNat_zero_append _, frameLo_toNat s.frame,
    frameHi_toNat s.frame, toNat_zero_append _, crcValue_toNat s, rfl, infoValue_eq⟩

/-- Settles O27: the two low bits change no word index, and from 0x30 up every index is reserved. -/
theorem readsAliasToWordsAndReservedReadZero : Obligations.ReadsAliasToWordsAndReservedReadZero := by
  have aligned : ∀ a : Byte, HostReg.ofOffset a = HostReg.ofOffset (a &&& 0xFC) := by decide
  have reserved : ∀ a : Byte, 0x30 ≤ a → HostReg.ofOffset a = .reserved := by decide
  intro s a
  constructor
  · rw [memRead, memRead, aligned]
  · intro high
    rw [memRead, reserved a high]
    rfl

end Sys2Proof.Machine
end

section
/-! The reset edge, register by register, and the state it leaves (70_reset_and_hazards.md R230, 10_state.md R31). -/

namespace Sys2Proof.Machine

open Sys2Proof Sys2Proof.Safety

/-- Settles O1: a scripted cycle with `rst` = 1 is the reset edge, whose state is R230's table written out. -/
theorem resetEdgeSetsEveryRegister : Obligations.ResetEdgeSetsEveryRegister :=
  fun _ _ _ script rst => step_rst script rst

/-- Settles O3: no register but CRC reads a parameter, so all are evaluated at the default ones. -/
theorem hostRegistersReadResetValues : Obligations.HostRegistersReadResetValues := by
  refine ⟨fun p a offset => ?_, fun _ => infoValue_eq, by decide +kernel⟩
  have zero : memRead State.reset a = 0 := by revert offset a; decide +kernel
  rw [← zero]
  rcases offset with rfl | rfl | rfl | rfl | rfl | rfl | rfl | rfl | rfl | rfl <;> rfl

theorem inv_resetWith {p : Params} (legal : p.Legal) : Inv (State.resetWith p) where
  cfgLegal := legal
  stLegal := fun _ unused => by cases unused
  attemptBounded := fun _ => BitVec.le_refl _
  decodeOnlyOffBus := fun _ => .inl rfl
  settleBounded := fun settle => by cases settle
  timerArmed := fun onBus => by rcases onBus with req | rsp <;> contradiction
  errorLegal := .inl ⟨rfl, rfl, rfl⟩
  doneIdle := fun _ => rfl
  doneValid := fun done => by cases done
  resultsMatch := fun valid => by cases valid
  resultsReset := fun _ => ⟨rfl, rfl, rfl, rfl⟩
  cancelAfterTimeout := fun cancel => by cases cancel
  boundBeforeUse := fun bound => by rcases bound with h | h | h | h | h <;> cases h

/-- Settles O4: nothing is in progress after reset, so every clause on a command in progress asks nothing. -/
theorem resetMeetsInvariant : Obligations.ResetMeetsInvariant :=
  ⟨fun _ legal => inv_resetWith legal, inv_resetWith (by decide)⟩

end Sys2Proof.Machine
end

section
/-! The bus operations in and outside their states (40_sequencer.md R106 to R118), and which one an edge carries
(10_state.md R45, 30_encoding.md R84). -/

namespace Sys2Proof.Machine

open Sys2Proof

/-! ### Raising an error -/

/-- The record of the error and the retry decision, register by register (60_exceptions.md R202, 40_sequencer.md R120). -/
theorem raise_eq (e : ProtocolError) (s : State) :
    raise e s =
      if s.mode = .cycle ∧ s.attempt < s.maxRetry then
        { s with
          errCode := e.code, errCause := e.cause, errState := s.st.code,
          attempt := s.attempt + 1, st := .bindReq, toCnt := s.timeout }
      else
        { s with errCode := e.code, errCause := e.cause, errState := s.st.code, st := .idle, done := true } := rfl

theorem accepted_of_isReq {s : State} (req : s.st.isReq = true) : accepted s = s.inp.bReqReady := by
  cases hst : s.st <;> simp_all [accepted, St.isReq, St.isRsp]

theorem accepted_of_isRsp {s : State} (rsp : s.st.isRsp = true) : accepted s = true := by simp [accepted, rsp]

/-! ### Requests -/

/-- The three requests: each in the state that presents it, with the state that awaits its response. -/
def RequestOf (i : Instr) (req rsp : St) : Prop :=
  (i, req, rsp) = (.bind, .bindReq, .bindRsp) ∨ (i, req, rsp) = (.writeTrigger, .writeReq, .writeRsp) ∨
    (i, req, rsp) = (.readFrame, .readReq, .readRsp)

theorem RequestOf.isReq {i : Instr} {req rsp : St} (request : RequestOf i req rsp) : req.isReq = true := by
  rcases request with h | h | h <;> cases h <;> rfl

/-- In its state a request is the state's edge. -/
theorem exec_request {s : State} {i : Instr} {rsp : St} (request : RequestOf i s.st rsp) :
    exec i s = .next (requestEdge rsp s) := by
  generalize hst : s.st = req at request
  rcases request with h | h | h <;> cases h <;> exact congrArg Host.Outcome.next (if_pos hst)

theorem exec_bind_off {s : State} (off : s.st ≠ .bindReq) : exec .bind s = .next s :=
  congrArg Host.Outcome.next (if_neg off)

theorem exec_writeTrigger_off {s : State} (off : s.st ≠ .writeReq) : exec .writeTrigger s = .next s :=
  congrArg Host.Outcome.next (if_neg off)

theorem exec_readFrame_off {s : State} (off : s.st ≠ .readReq) : exec .readFrame s = .next s :=
  congrArg Host.Outcome.next (if_neg off)

/-- Settles O28: with no timeout due a request counts, and moves on when it is accepted. -/
theorem requestWaitsUntilAccepted : Obligations.RequestWaitsUntilAccepted := by
  rintro s i _ rsp request rfl noTimeout
  rw [exec_request request, requestEdge, if_neg noTimeout, countDown_eq]
  cases s.inp.bReqReady <;> rfl

/-- Settles O29: the timeout raises its error with `cancel_q` set if the transport was ready. -/
theorem requestTimeoutRaisesBusFault : Obligations.RequestTimeoutRaisesBusFault := by
  intro s i request due
  obtain ⟨rsp, request⟩ : ∃ rsp, RequestOf i s.st rsp := by
    rcases request with ⟨rfl, hst⟩ | ⟨rfl, hst⟩ | ⟨rfl, hst⟩ <;> rw [hst]
    · exact ⟨_, .inl rfl⟩
    · exact ⟨_, .inr (.inl rfl)⟩
    · exact ⟨_, .inr (.inr rfl)⟩
  rw [exec_request request, requestEdge, if_pos due, takeTimeout_eq, accepted_of_isReq request.isReq, raise_eq]
  rfl

/-! ### Responses -/

theorem exec_rspOk (n : Byte) (data : BitVec 56) (s : State) : exec (.rspOk n data) s = .next (respond false n data s) := rfl

theorem exec_rspErr (n : Byte) (data : BitVec 56) (s : State) : exec (.rspErr n data) s = .next (respond true n data s) := rfl

theorem exec_rspData (n : Byte) (data : BitVec 56) (s : State) : exec (.rspData n data) s = .next (respond false n data s) :=
  rfl

theorem respond_bindRsp {s : State} (hst : s.st = .bindRsp) (n : Byte) (data : BitVec 56) :
    respond false n data s = bindDone s := by simp [respond, hst]

theorem respond_writeRsp {s : State} (hst : s.st = .writeRsp) (n : Byte) (data : BitVec 56) :
    respond false n data s = writeDone s := by simp [respond, hst]

theorem respond_readRsp {s : State} (hst : s.st = .readRsp) (n : Byte) (data : BitVec 56) :
    respond false n data s = readDone n data s := by simp [respond, hst]

theorem respond_error {s : State} (rsp : s.st.isRsp = true) (n : Byte) (data : BitVec 56) :
    respond true n data s = raise .transport s := by simp [respond, rsp]

theorem respond_off {s : State} (off : s.st.isRsp = false) (err : Bool) (n : Byte) (data : BitVec 56) :
    respond err n data s = s := by
  cases hst : s.st <;> simp_all [respond, St.isRsp]

/-- Settles O30: the success of each of the two states, written out. -/
theorem successResponsesAdvance : Obligations.SuccessResponsesAdvance := by
  intro s n data
  constructor
  · intro hst
    rw [exec_rspOk, respond_bindRsp hst]
    rfl
  · intro hst
    rw [exec_rspOk, respond_writeRsp hst]
    rfl

/-- Settles O31: an error response raises TRANSPORT in the RSP state it arrives in. -/
theorem errorResponseRaisesBusFault : Obligations.ErrorResponseRaisesBusFault := by
  intro s n data rsp
  rw [exec_rspErr, respond_error rsp, raise_eq]
  rfl

/-- Byte k of a captured frame: from the response below its count, else zero (40_sequencer.md R113). -/
theorem captureFrame_bytes (n : Byte) (data : BitVec 56) :
    (captureFrame n data).bytes = (List.range 7).map fun k => if k < n.toNat then rdataByte data k else 0 := rfl

/-- Settles O32: the captured frame has the response's bytes below min(N, 7). -/
theorem dataResponseCapturesTheFrame : Obligations.DataResponseCapturesTheFrame := by
  intro s n data hst
  refine ⟨captureFrame n data, by rw [exec_rspData, respond_readRsp hst, readDone], fun k hk => ?_⟩
  have below : k < min n.toNat 7 ↔ k < n.toNat := by omega
  simp only [captureFrame_bytes, List.getElem_map, List.getElem_range, below, rdataByte]

/-- Settles O33: off its state an operation changes nothing, and the two names of the E = 0 word have one meaning. -/
theorem busOperationsOffTheirStatesDoNothing : Obligations.BusOperationsOffTheirStatesDoNothing := by
  intro s n data
  refine ⟨fun off => ?_, exec_bind_off, exec_writeTrigger_off, exec_readFrame_off, rfl⟩
  rw [exec_rspOk, exec_rspErr, exec_rspData, respond_off off, respond_off off]
  exact ⟨rfl, rfl, rfl⟩

/-! ### The operation of an edge -/

theorem St.isReq_eq_false_of_isRsp {st : St} (rsp : st.isRsp = true) : st.isReq = false := by
  cases st <;> simp_all [St.isRsp, St.isReq]

theorem busInstr_silent {s : State} (rsp : s.st.isRsp = true) (silent : s.inp.bRspValid = false) : busInstr s = none := by
  rw [busInstr_noReq (St.isReq_eq_false_of_isRsp rsp), silent, Bool.and_false]; rfl

/-- In a RSP state a response is read by E and by whether the state is READ_RSP. -/
theorem busInstr_response {s : State} (rsp : s.st.isRsp = true) (valid : s.inp.bRspValid = true) :
    busInstr s = some (decodeRsp (s.st == .readRsp) (rspWord s.inp.bRspErr s.inp.bRspCount s.inp.bRspRdata)) := by
  rw [busInstr_noReq (St.isReq_eq_false_of_isRsp rsp), rsp, valid]; rfl

theorem busInstr_off {s : State} (noReq : s.st.isReq = false) (noRsp : s.st.isRsp = false) : busInstr s = none := by
  rw [busInstr_noReq noReq, noRsp, Bool.false_and]; rfl

/-- Settles O8: the REQ states carry their request, the RSP states the response shown, the others nothing. -/
theorem busOperationOfEachState : Obligations.BusOperationOfEachState := by
  refine fun s => ⟨busInstr_bindReq, busInstr_writeReq, busInstr_readReq, busInstr_silent, ?error, ?ok, ?data, busInstr_off⟩
  case error =>
    intro rsp valid err
    rw [busInstr_response rsp valid, decodeRsp_rspWord, err]
  case ok =>
    intro hst valid noErr
    have rsp : s.st.isRsp = true := by rcases hst with hst | hst <;> rw [hst] <;> rfl
    have notRead : (s.st == .readRsp) = false := by rcases hst with hst | hst <;> rw [hst] <;> rfl
    rw [busInstr_response rsp valid, decodeRsp_rspWord, noErr, notRead]
  case data =>
    intro hst valid noErr
    rw [busInstr_response (by rw [hst]; rfl) valid, decodeRsp_rspWord, noErr, hst]
    rfl

end Sys2Proof.Machine
end

section
/-! An edge from the cycle's inputs: the host operation's effect, then, outside IDLE, one rule of the sequencer on the
state it leaves (40_sequencer.md R100). -/

namespace Sys2Proof.Machine

open Sys2Proof

/-! ### The host's part -/

/-- What the host port does in a cycle with the inputs x. -/
def hostPart (x : Inputs) (s : State) : State := hostEffect x.hWr x.hRd x.hAddr x.hWdata s

/-- The write effects by cases: nothing outside the host's own registers, and outside IDLE no more than its flags. -/
theorem hostWrite_busy {s : State} (busy : s.st ≠ .idle) (a : Byte) (d : Reg32) :
    ∃ ie ovr done, hostWrite a d s = { s with ie := ie, ovr := ovr, done := done } ∧ (done = true → s.done = true) := by
  unfold hostWrite
  split
  · split
    · rw [startCommand_busy (s := writeConfig d s) busy, writeConfig_busy d busy]; exact ⟨_, _, _, rfl, id⟩
    · split
      · rw [decodeCommand_busy (s := writeConfig d s) busy, writeConfig_busy d busy]; exact ⟨_, _, _, rfl, id⟩
      · rw [writeConfig_busy d busy]; exact ⟨_, _, _, rfl, id⟩
  · exact ⟨_, _, _, rfl, fun done => (Bool.and_eq_true_iff.1 done).1⟩
  · rw [writeFrameLo_busy d busy]; exact ⟨_, _, _, rfl, id⟩
  · rw [writeFrameHi_busy d busy]; exact ⟨_, _, _, rfl, id⟩
  · rw [writeFrameLen_busy d busy]; exact ⟨_, _, _, rfl, id⟩
  · rw [writeTimeout_busy d busy]; exact ⟨_, _, _, rfl, id⟩
  all_goals exact ⟨_, _, _, rfl, id⟩

/-- Outside IDLE the host's part writes its flags and the read port, and sets no DONE. -/
theorem hostPart_busy {s : State} (busy : s.st ≠ .idle) (x : Inputs) :
    ∃ ie ovr done rdata rvalid, hostPart x s = withHostFlags s ie ovr done rdata rvalid ∧
      (done = true → s.done = true) := by
  rw [hostPart, hostEffect]
  cases x.hWr with
  | false => exact ⟨_, _, _, _, _, rfl, id⟩
  | true =>
    obtain ⟨ie, ovr, done, write, clears⟩ := hostWrite_busy (s := hostRead x.hRd x.hAddr s) busy x.hAddr x.hWdata
    exact ⟨_, _, _, _, _, by rw [if_pos rfl, write]; rfl, clears⟩

/-- With neither W nor R the host's part is a NOP (43_host_ops.md R300). -/
theorem hostPart_nop {x : Inputs} (noWrite : x.hWr = false) (noRead : x.hRd = false) (s : State) :
    hostPart x s = { s with hRvalid := false } := by
  rw [hostPart, hostEffect, noWrite, noRead]; rfl

/-- No write effect reads the recorded inputs. -/
theorem hostWrite_setInp (a : Byte) (d : Reg32) (y : Inputs) (s : State) :
    hostWrite a d { s with inp := y } = { hostWrite a d s with inp := y } := by
  rcases s with ⟨_, st⟩
  unfold hostWrite
  split
  · cases d.getLsbD 0 <;> cases d.getLsbD 1 <;> cases st <;> rfl
  all_goals cases st <;> rfl

theorem hostPart_setInp (x y : Inputs) (s : State) : hostPart x { s with inp := y } = { hostPart x s with inp := y } := by
  unfold hostPart hostEffect
  cases x.hWr with
  | false => rfl
  | true => exact hostWrite_setInp x.hAddr x.hWdata y (hostRead x.hRd x.hAddr s)

theorem hostPart_st_of_busy {s : State} (busy : s.st ≠ .idle) (x : Inputs) : (hostPart x s).st = s.st := by
  obtain ⟨_, _, _, _, _, host, -⟩ := hostPart_busy busy x
  rw [host]; rfl

theorem hostPart_inp_of_busy {s : State} (busy : s.st ≠ .idle) (x : Inputs) : (hostPart x s).inp = s.inp := by
  obtain ⟨_, _, _, _, _, host, -⟩ := hostPart_busy busy x
  rw [host]; rfl

/-! ### The edge -/

/-- An edge from IDLE is its host operation (40_sequencer.md R105). -/
theorem edge_idle {p : State} (run : p.inp.rst = false) (idle : p.st = .idle) :
    edge p = .next (hostPart p.inp { p with cancelQ := false }) := by
  rw [edge_run run (exec_hostInstr p _)]
  exact sequencerEdge_idle idle _

/-- An edge outside IDLE is the sequencer's on what the host's part leaves. -/
theorem edge_busy {p : State} (run : p.inp.rst = false) (busy : p.st ≠ .idle) :
    edge p = sequencerEdge (hostPart p.inp { p with cancelQ := false }) (hostPart p.inp { p with cancelQ := false }) := by
  rw [edge_run run (exec_hostInstr p _)]
  exact sequencerEdge_congr (hostPart_st_of_busy (s := { p with cancelQ := false }) busy _)
    (hostPart_inp_of_busy (s := { p with cancelQ := false }) busy _)

/-- The state from which an edge with scripted inputs runs: the inputs loaded, `cancel_q` dropped (40_sequencer.md
R117). -/
def atEdge (x : Inputs) (rest : List Inputs) (s : State) : State :=
  { s with inp := x, script := rest, cancelQ := false }

/-- The same after a NOP of the host, which drops the read port's valid bit (43_host_ops.md R300). -/
def nopAtEdge (x : Inputs) (rest : List Inputs) (s : State) : State :=
  { s with inp := x, script := rest, cancelQ := false, hRvalid := false }

section
variable {s : State} {x : Inputs} {rest : List Inputs}

theorem step_idle (script : s.script = x :: rest) (run : x.rst = false) (idle : s.st = .idle) :
    step s = .next (hostPart x (atEdge x rest s)) := by
  rw [step, loadInputs_cons script]
  exact edge_idle (p := { s with inp := x, script := rest }) run idle

theorem step_busy (script : s.script = x :: rest) (run : x.rst = false) (busy : s.st ≠ .idle) :
    step s = sequencerEdge (hostPart x (atEdge x rest s)) (hostPart x (atEdge x rest s)) := by
  rw [step, loadInputs_cons script]
  exact edge_busy (p := { s with inp := x, script := rest }) run busy

/-- Outside IDLE, with an idle host, the edge is the sequencer's alone. -/
theorem step_busy_nop (script : s.script = x :: rest) (run : x.rst = false) (noWrite : x.hWr = false)
    (noRead : x.hRd = false) (busy : s.st ≠ .idle) :
    step s = sequencerEdge (nopAtEdge x rest s) (nopAtEdge x rest s) := by
  rw [step_busy script run busy, hostPart_nop noWrite noRead]
  rfl

end

/-- Settles O6: a reset edge, the host operation and the sequencer each answer a next state. -/
theorem everyStepAnswersNext : Obligations.EveryStepAnswersNext := by
  intro s
  rw [step]
  cases rst : (loadInputs s).inp.rst with
  | true => exact ⟨_, edge_rst rst⟩
  | false =>
    by_cases idle : (loadInputs s).st = .idle
    · exact ⟨_, edge_idle rst idle⟩
    · obtain ⟨t, next, -⟩ := sequencerEdge_rule
        (p := hostPart (loadInputs s).inp { loadInputs s with cancelQ := false })
        (by rwa [hostPart_st_of_busy (s := { loadInputs s with cancelQ := false }) idle])
      exact ⟨t, (edge_busy rst idle).trans next⟩

/-- Settles O7: p is the state with the cycle's inputs loaded, and i is the operation of its host port. -/
theorem stepRunsDecodedOperations : Obligations.StepRunsDecodedOperations := by
  intro s p i fromScript drawn run decoded h host
  have loaded : loadInputs s = p := by
    cases script : s.script with
    | nil => rw [loadInputs_nil script, drawn script]
    | cons x rest => rw [loadInputs_cons script, fromScript x rest script]
  cases decoded
  rw [step, loaded, edge_run run host]
  rfl

/-! ### The sequencer's rule of each state -/

theorem sequencerEdge_request {p : State} {i : Instr} {rsp : St} (request : RequestOf i p.st rsp) :
    sequencerEdge p p = .next (requestEdge rsp p) := by
  have bus : busInstr p = some i := by
    generalize hst : p.st = req at request
    rcases request with h | h | h <;> cases h
    · exact busInstr_bindReq hst
    · exact busInstr_writeReq hst
    · exact busInstr_readReq hst
  rw [sequencerEdge, bus]
  exact exec_request request

theorem sequencerEdge_silent {p : State} (rsp : p.st.isRsp = true) (silent : p.inp.bRspValid = false) :
    sequencerEdge p p = .next (waitEdge p) := by
  rw [sequencerEdge, busInstr_silent rsp silent]
  cases hst : p.st <;> simp_all [St.isRsp, quietEdge]

theorem sequencerEdge_response {p : State} (rsp : p.st.isRsp = true) (valid : p.inp.bRspValid = true) :
    sequencerEdge p p = .next (respond p.inp.bRspErr p.inp.bRspCount p.inp.bRspRdata p) := by
  rw [sequencerEdge, busInstr_response rsp valid, decodeRsp_rspWord]
  cases p.inp.bRspErr <;> cases p.st == .readRsp <;> rfl

theorem sequencerEdge_quiet {p : State} (noReq : p.st.isReq = false) (noRsp : p.st.isRsp = false) :
    sequencerEdge p p = .next (quietEdge p.st p) := by
  rw [sequencerEdge, busInstr_off noReq noRsp]

theorem sequencerEdge_settle {p : State} (hst : p.st = .settle) : sequencerEdge p p = .next (settleEdge p) := by
  rw [sequencerEdge_quiet (by rw [hst]; rfl) (by rw [hst]; rfl), hst]; rfl

theorem sequencerEdge_decode {p : State} (hst : p.st = .decode) : sequencerEdge p p = .next (decodeEdge p) := by
  rw [sequencerEdge_quiet (by rw [hst]; rfl) (by rw [hst]; rfl), hst]; rfl

/-- A REQ state presents one of the three requests. -/
theorem exists_requestOf {st : St} (req : st.isReq = true) : ∃ i rsp, RequestOf i st rsp := by
  cases st <;> simp [St.isReq] at req
  · exact ⟨_, _, .inl rfl⟩
  · exact ⟨_, _, .inr (.inl rfl)⟩
  · exact ⟨_, _, .inr (.inr rfl)⟩

theorem requestEdge_timeout {p : State} (due : p.toCnt = 1) (nxt : St) :
    requestEdge nxt p = raise .timeout { p with cancelQ := p.cancelQ || accepted p } := by
  rw [requestEdge, if_pos due, takeTimeout_eq]

theorem requestEdge_wait {p : State} (notDue : p.toCnt ≠ 1) (notReady : p.inp.bReqReady = false) (nxt : St) :
    requestEdge nxt p = countDown p := by
  rw [requestEdge, if_neg notDue, notReady]; rfl

theorem requestEdge_accept {p : State} (notDue : p.toCnt ≠ 1) (ready : p.inp.bReqReady = true) (nxt : St) :
    requestEdge nxt p = { countDown p with st := nxt } := by
  rw [requestEdge, if_neg notDue, ready]; rfl

theorem decodeEdge_ok {p : State} {h t : BitVec 20} {hb tb : Reg32}
    (ok : decodeFrame p.cfg p.frame p.frameLen p.crcEn = .ok h t hb tb) : decodeEdge p = complete h t hb tb p := by
  rw [decodeEdge, ok]

theorem decodeEdge_err {p : State} {e : ProtocolError}
    (err : decodeFrame p.cfg p.frame p.frameLen p.crcEn = .err e) : decodeEdge p = raise e p := by
  rw [decodeEdge, err]

/-- The rules say all of what the sequencer does: where one applies, its state is the edge's. -/
theorem SeqRule.sequencerEdge_eq {p q : State} (rule : SeqRule p q) : sequencerEdge p p = .next q := by
  cases rule with
  | stuck k hst => rw [sequencerEdge_quiet (by rw [hst]; rfl) (by rw [hst]; rfl), hst]; rfl
  | waitRequest req notReady notDue =>
    obtain ⟨i, rsp, request⟩ := exists_requestOf req
    rw [sequencerEdge_request request, requestEdge_wait notDue notReady]
  | waitResponse rsp silent notDue => rw [sequencerEdge_silent rsp silent, waitEdge, if_neg notDue]
  | acceptBind hst ready notDue =>
    rw [sequencerEdge_request (i := .bind) (rsp := .bindRsp) (by rw [hst]; exact .inl rfl), requestEdge_accept notDue ready]
  | acceptWrite hst ready notDue =>
    rw [sequencerEdge_request (i := .writeTrigger) (rsp := .writeRsp) (by rw [hst]; exact .inr (.inl rfl)),
      requestEdge_accept notDue ready]
  | acceptRead hst ready notDue =>
    rw [sequencerEdge_request (i := .readFrame) (rsp := .readRsp) (by rw [hst]; exact .inr (.inr rfl)),
      requestEdge_accept notDue ready]
  | timeout onBus due =>
    rcases onBus with req | ⟨rsp, silent⟩
    · obtain ⟨i, rsp, request⟩ := exists_requestOf req
      rw [sequencerEdge_request request, requestEdge_timeout due]
    · rw [sequencerEdge_silent rsp silent, waitEdge, if_pos due, takeTimeout_eq]
  | errorResponse rsp valid err => rw [sequencerEdge_response rsp valid, err, respond_error rsp]
  | bindDone hst valid noErr => rw [sequencerEdge_response (by rw [hst]; rfl) valid, noErr, respond_bindRsp hst]
  | writeDone hst valid noErr => rw [sequencerEdge_response (by rw [hst]; rfl) valid, noErr, respond_writeRsp hst]
  | readDone hst valid noErr => rw [sequencerEdge_response (by rw [hst]; rfl) valid, noErr, respond_readRsp hst]
  | settled hst zero => rw [sequencerEdge_settle hst, settleEdge, if_pos zero]
  | settling hst nonzero => rw [sequencerEdge_settle hst, settleEdge, if_neg nonzero]
  | decoded h t hb tb hst ok => rw [sequencerEdge_decode hst, decodeEdge_ok ok]
  | decodeError e hst err => rw [sequencerEdge_decode hst, decodeEdge_err err]

end Sys2Proof.Machine
end

section
/-! What the rules of the sequencer read and write of the host's flags and of the recorded inputs: the host operation
and the rule of one edge do not interfere (40_sequencer.md R100, 60_exceptions.md R206), and inputs that a state does not
read have no effect (40_sequencer.md R118, R131). -/

namespace Sys2Proof.Machine

open Sys2Proof

/-! ### The host's flags -/

/-- An error of a running command sets DONE where it ends the command, and keeps it where it retries. -/
theorem raise_done (e : ProtocolError) (s : State) :
    (raise e s).done = if (raise e s).st = .idle then true else s.done := by
  rw [raise_eq]
  split <;> rfl

/-- A rule sets DONE where it reaches IDLE, and keeps it elsewhere (60_exceptions.md R206). -/
theorem SeqRule.done_eq {p t : State} (rule : SeqRule p t) (busy : p.st ≠ .idle) :
    t.done = if t.st = .idle then true else p.done := by
  cases rule with
  | timeout | errorResponse | decodeError => exact raise_done ..
  | decoded => rfl
  | stuck | settling => exact (if_neg busy).symm
  | waitRequest | waitResponse => rw [countDown_eq]; exact (if_neg busy).symm
  | acceptBind | acceptWrite | acceptRead => rw [countDown_eq]; rfl
  | bindDone | writeDone | readDone | settled => rfl

/-- Raising an error reads none of the host's flags. -/
theorem raise_withHostFlags (e : ProtocolError) (s : State) (ie ovr done : Bool) (rdata : Reg32) (rvalid : Bool) :
    raise e (withHostFlags s ie ovr done rdata rvalid) =
      withHostFlags (raise e s) ie ovr (if (raise e s).st = .idle then true else done) rdata rvalid := by
  by_cases retry : s.mode = .cycle ∧ s.attempt < s.maxRetry
  · rw [raise_retry e retry, raise_retry e (s := withHostFlags s ie ovr done rdata rvalid) retry]; rfl
  · rw [raise_finish e retry, raise_finish e (s := withHostFlags s ie ovr done rdata rvalid) retry]; rfl

theorem countDown_withHostFlags (s : State) (ie ovr done : Bool) (rdata : Reg32) (rvalid : Bool) :
    countDown (withHostFlags s ie ovr done rdata rvalid) = withHostFlags (countDown s) ie ovr done rdata rvalid := by
  rw [countDown_eq, countDown_eq]; rfl

section
variable (ie ovr done : Bool) (rdata : Reg32) (rvalid : Bool)

/-- A rule acts alike under any flags of the host, and keeps them but for DONE, which it sets where it finishes. -/
theorem SeqRule.setHostFlags {p t : State} (rule : SeqRule p t) (busy : p.st ≠ .idle) :
    SeqRule (withHostFlags p ie ovr done rdata rvalid)
      (withHostFlags t ie ovr (if t.st = .idle then true else done) rdata rvalid) := by
  cases rule with
  | stuck k hst => rw [if_neg busy]; exact .stuck k hst
  | waitRequest req notReady notDue =>
    rw [if_neg (by rwa [countDown_eq]), ← countDown_withHostFlags]; exact .waitRequest req notReady notDue
  | waitResponse rsp silent notDue =>
    rw [if_neg (by rwa [countDown_eq]), ← countDown_withHostFlags]; exact .waitResponse rsp silent notDue
  | acceptBind hst ready notDue =>
    have := SeqRule.acceptBind (p := withHostFlags p ie ovr done rdata rvalid) hst ready notDue
    rwa [countDown_withHostFlags] at this
  | acceptWrite hst ready notDue =>
    have := SeqRule.acceptWrite (p := withHostFlags p ie ovr done rdata rvalid) hst ready notDue
    rwa [countDown_withHostFlags] at this
  | acceptRead hst ready notDue =>
    have := SeqRule.acceptRead (p := withHostFlags p ie ovr done rdata rvalid) hst ready notDue
    rwa [countDown_withHostFlags] at this
  | timeout onBus due =>
    rw [← raise_withHostFlags]; exact .timeout (p := withHostFlags p ie ovr done rdata rvalid) onBus due
  | errorResponse rsp valid err => rw [← raise_withHostFlags]; exact .errorResponse rsp valid err
  | bindDone hst valid noErr => exact .bindDone hst valid noErr
  | writeDone hst valid noErr => exact .writeDone hst valid noErr
  | readDone hst valid noErr => exact .readDone hst valid noErr
  | settled hst zero => exact .settled (p := withHostFlags p ie ovr done rdata rvalid) hst zero
  | settling hst nonzero =>
    rw [if_neg busy]; exact .settling (p := withHostFlags p ie ovr done rdata rvalid) hst nonzero
  | decoded h t hb tb hst ok => exact .decoded h t hb tb hst ok
  | decodeError e hst err => rw [← raise_withHostFlags]; exact .decodeError e hst err

end

/-- Settles O9: the host's part changes its flags alone, and the rule acts alike under them. -/
theorem hostAndSequencerDoNotInterfere : Obligations.HostAndSequencerDoNotInterfere := by
  rintro s _ x rest script run rfl
  constructor
  · intro idle
    rw [step_idle script run idle, exec_hostInstr]
    rfl
  · intro busy
    obtain ⟨q, next, rule⟩ := sequencerEdge_rule (p := atEdge x rest s) busy
    obtain ⟨ie, ovr, done, rdata, rvalid, host, -⟩ := hostPart_busy (s := atEdge x rest s) busy x
    refine ⟨_, q, exec_hostInstr (atEdge x rest s) (atEdge x rest s), next, ?_⟩
    rw [step_busy script run busy, show (atEdge x rest s).inp = x from rfl, ← hostPart, host]
    exact (rule.setHostFlags ie ovr done rdata rvalid busy).sequencerEdge_eq

/-! ### The inputs a state reads -/

/-- The bus inputs that `st` reads are the same in x and y (40_sequencer.md R118, R131; 30_encoding.md R84). -/
structure SameBusInputs (st : St) (x y : Inputs) : Prop where
  ready : st.isReq = true → x.bReqReady = y.bReqReady
  valid : st.isRsp = true → x.bRspValid = y.bRspValid
  err : st.isRsp = true → x.bRspValid = true → x.bRspErr = y.bRspErr
  frame : st = .readRsp → x.bRspValid = true → x.bRspErr = false →
    x.bRspCount = y.bRspCount ∧ captureFrame x.bRspCount x.bRspRdata = captureFrame y.bRspCount y.bRspRdata

/-- A captured frame depends on the count and on the bytes below it. -/
theorem captureFrame_congr {n : Byte} {data data' : BitVec 56}
    (bytes : ∀ k, k < 7 → k < n.toNat → rdataByte data k = rdataByte data' k) : captureFrame n data = captureFrame n data' := by
  have byte : ∀ k, k < 7 → (if k < n.toNat then rdataByte data k else 0) = if k < n.toNat then rdataByte data' k else 0 :=
    fun k hk => if_ctx_congr Iff.rfl (bytes k hk) fun _ => rfl
  simp only [captureFrame, byte _ (show 0 < 7 by decide), byte _ (show 1 < 7 by decide), byte _ (show 2 < 7 by decide),
    byte _ (show 3 < 7 by decide), byte _ (show 4 < 7 by decide), byte _ (show 5 < 7 by decide),
    byte _ (show 6 < 7 by decide)]

theorem raise_setInp (e : ProtocolError) (s : State) (y : Inputs) :
    raise e { s with inp := y } = { raise e s with inp := y } := by
  by_cases retry : s.mode = .cycle ∧ s.attempt < s.maxRetry
  · rw [raise_retry e retry, raise_retry e (s := { s with inp := y }) retry]; rfl
  · rw [raise_finish e retry, raise_finish e (s := { s with inp := y }) retry]; rfl

theorem countDown_setInp (s : State) (y : Inputs) : countDown { s with inp := y } = { countDown s with inp := y } := by
  rw [countDown_eq, countDown_eq]

/-- Whether a request is accepted at an edge depends on the ready input in a REQ state alone. -/
theorem accepted_setInp {s : State} {y : Inputs} (ready : s.st.isReq = true → s.inp.bReqReady = y.bReqReady) :
    accepted { s with inp := y } = accepted s := by
  rw [accepted, accepted]
  cases req : s.st.isReq with
  | true => rw [ready req]
  | false => rfl

/-- A rule acts alike under inputs that agree where its state reads them. -/
theorem SeqRule.setInp {p t : State} {y : Inputs} (rule : SeqRule p t) (same : SameBusInputs p.st p.inp y) :
    SeqRule { p with inp := y } { t with inp := y } := by
  have isReq : ∀ {st : St}, p.st = st → st.isReq = true → p.st.isReq = true := fun hst req => by rw [hst, req]
  have isRsp : ∀ {st : St}, p.st = st → st.isRsp = true → p.st.isRsp = true := fun hst rsp => by rw [hst, rsp]
  cases rule with
  | stuck k hst => exact .stuck k hst
  | waitRequest req notReady notDue =>
    rw [← countDown_setInp]
    exact .waitRequest req ((same.ready req).symm.trans notReady) notDue
  | waitResponse rsp silent notDue =>
    rw [← countDown_setInp]
    exact .waitResponse rsp ((same.valid rsp).symm.trans silent) notDue
  | acceptBind hst ready notDue =>
    have := SeqRule.acceptBind (p := { p with inp := y }) hst ((same.ready (isReq hst rfl)).symm.trans ready) notDue
    rwa [countDown_setInp] at this
  | acceptWrite hst ready notDue =>
    have := SeqRule.acceptWrite (p := { p with inp := y }) hst ((same.ready (isReq hst rfl)).symm.trans ready) notDue
    rwa [countDown_setInp] at this
  | acceptRead hst ready notDue =>
    have := SeqRule.acceptRead (p := { p with inp := y }) hst ((same.ready (isReq hst rfl)).symm.trans ready) notDue
    rwa [countDown_setInp] at this
  | timeout onBus due =>
    have onBus : p.st.isReq = true ∨ p.st.isRsp = true ∧ y.bRspValid = false :=
      onBus.imp_right fun ⟨rsp, silent⟩ => ⟨rsp, (same.valid rsp).symm.trans silent⟩
    rw [← raise_setInp, ← accepted_setInp same.ready]
    exact .timeout (p := { p with inp := y }) onBus due
  | errorResponse rsp valid err =>
    rw [← raise_setInp]
    exact .errorResponse rsp ((same.valid rsp).symm.trans valid) ((same.err rsp valid).symm.trans err)
  | bindDone hst valid noErr =>
    have rsp := isRsp hst rfl
    exact .bindDone hst ((same.valid rsp).symm.trans valid) ((same.err rsp valid).symm.trans noErr)
  | writeDone hst valid noErr =>
    have rsp := isRsp hst rfl
    exact .writeDone hst ((same.valid rsp).symm.trans valid) ((same.err rsp valid).symm.trans noErr)
  | readDone hst valid noErr =>
    have rsp := isRsp hst rfl
    obtain ⟨count, frame⟩ := same.frame hst valid noErr
    rw [Machine.readDone, frame, count]
    exact .readDone (p := { p with inp := y }) hst ((same.valid rsp).symm.trans valid)
      ((same.err rsp valid).symm.trans noErr)
  | settled hst zero => exact .settled (p := { p with inp := y }) hst zero
  | settling hst nonzero => exact .settling (p := { p with inp := y }) hst nonzero
  | decoded h t hb tb hst ok => exact .decoded h t hb tb hst ok
  | decodeError e hst err => rw [← raise_setInp]; exact .decodeError e hst err

theorem SameBusInputs.refl (st : St) (x : Inputs) : SameBusInputs st x x where
  ready := fun _ => rfl
  valid := fun _ => rfl
  err := fun _ _ => rfl
  frame := fun _ _ _ => ⟨rfl, rfl⟩

/-- An edge outside IDLE is the rule that applies after the host's part, the inputs recorded. -/
theorem edge_of_rule {s q : State} {x : Inputs} (run : x.rst = false) (busy : s.st ≠ .idle)
    (rule : SeqRule { hostPart x { s with cancelQ := false } with inp := x } q) : edge { s with inp := x } = .next q := by
  rw [edge_busy (p := { s with inp := x }) run busy, hostPart_setInp x x { s with cancelQ := false }]
  exact rule.sequencerEdge_eq

/-- Settles O10: host part and rule act alike under the two input vectors, but for the recorded inputs. -/
theorem unreadBusInputsHaveNoEffect : Obligations.UnreadBusInputsHaveNoEffect := by
  intro s x y rst wr rd addr wdata ready response readBytes
  have same : SameBusInputs s.st x y :=
    { ready
      valid := fun rsp => (response rsp).1
      err := fun rsp => (response rsp).2
      frame := fun hst valid noErr => by
        obtain ⟨count, bytes⟩ := readBytes hst valid noErr
        rw [← count]
        exact ⟨rfl, captureFrame_congr bytes⟩ }
  have part : ∀ s, hostPart y s = hostPart x s := fun s => by rw [hostPart, hostPart, wr, rd, addr, wdata]
  cases run : x.rst with
  | true => exact ⟨resetEdge s, edge_rst (s := { s with inp := x }) run, edge_rst (s := { s with inp := y }) (rst ▸ run)⟩
  | false =>
    by_cases idle : s.st = .idle
    · refine ⟨hostPart x { s with cancelQ := false }, ?_, ?_⟩
      · rw [edge_idle (p := { s with inp := x }) run idle, ← hostPart_setInp]
      · rw [edge_idle (p := { s with inp := y }) (rst ▸ run) idle, part, ← hostPart_setInp]
    · have hst : (hostPart x { s with cancelQ := false }).st = s.st :=
        hostPart_st_of_busy (s := { s with cancelQ := false }) idle x
      obtain ⟨q, -, rule⟩ :=
        sequencerEdge_rule (p := { hostPart x { s with cancelQ := false } with inp := x }) (by rwa [hst])
      refine ⟨q, edge_of_rule run idle (rule.setInp (y := x) (.refl _ x)), edge_of_rule (rst ▸ run) idle ?_⟩
      rw [part]
      exact rule.setInp (by rwa [hst])

end Sys2Proof.Machine
end

section
/-! Single edges outside IDLE, written out: with an idle host (40_sequencer.md R111, R114 to R116, 60_exceptions.md
R205), and beside a STATUS write (R206). -/

namespace Sys2Proof.Machine

open Sys2Proof

theorem St.ne_idle_of_isRsp {st : St} (rsp : st.isRsp = true) : st ≠ .idle := by
  rintro rfl; cases rsp

/-- Settles O34: without a response the RSP state waits; a timeout there is of an accepted request. -/
theorem silentResponseStateCountsOrTimesOut : Obligations.SilentResponseStateCountsOrTimesOut := by
  intro s x rest script run noWrite noRead silent rsp
  rw [step_busy_nop script run noWrite noRead (St.ne_idle_of_isRsp rsp),
    sequencerEdge_silent (p := nopAtEdge x rest s) rsp silent]
  by_cases due : s.toCnt = 1
  · rw [if_pos due, waitEdge, if_pos (show (nopAtEdge x rest s).toCnt = 1 from due), takeTimeout_eq, raise_eq,
      accepted_of_isRsp (s := nopAtEdge x rest s) rsp]
    rfl
  · rw [if_neg due, waitEdge, if_neg (show (nopAtEdge x rest s).toCnt ≠ 1 from due), countDown_eq]
    rfl

theorem St.eq_of_isRsp {st : St} (rsp : st.isRsp = true) : st = .bindRsp ∨ st = .writeRsp ∨ st = .readRsp := by
  cases st <;> simp_all [St.isRsp]

/-- Settles O35: the response is looked at first, and the success of each RSP state writes none of these registers. -/
theorem responseBeatsTimeout : Obligations.ResponseBeatsTimeout := by
  intro s x rest script run noWrite noRead valid noErr rsp
  refine ⟨_, by rw [step_busy_nop script run noWrite noRead (St.ne_idle_of_isRsp rsp),
    sequencerEdge_response (p := nopAtEdge x rest s) rsp valid], ?_⟩
  rw [show (nopAtEdge x rest s).inp = x from rfl, noErr]
  rcases St.eq_of_isRsp rsp with hst | hst | hst <;> rw [hst]
  · rw [respond_bindRsp (s := nopAtEdge x rest s) hst]
    exact ⟨rfl, rfl, rfl, rfl, rfl, rfl, rfl⟩
  · rw [respond_writeRsp (s := nopAtEdge x rest s) hst]
    exact ⟨rfl, rfl, rfl, rfl, rfl, rfl, rfl⟩
  · rw [respond_readRsp (s := nopAtEdge x rest s) hst]
    exact ⟨rfl, rfl, rfl, rfl, rfl, rfl, rfl⟩

/-- Settles O36: the two cases of the settle rule. -/
theorem settleCountsDown : Obligations.SettleCountsDown := by
  intro s x rest script run noWrite noRead hst
  rw [step_busy_nop script run noWrite noRead (by rw [hst]; exact St.noConfusion),
    sequencerEdge_settle (p := nopAtEdge x rest s) hst, settleEdge]
  rfl

/-- Settles O38: a DECODE edge whose decoder answers Ok is the success procedure. -/
theorem decodeSuccessCompletes : Obligations.DecodeSuccessCompletes := by
  intro s x rest rawH rawT hb tb script run noWrite noRead hst ok
  rw [step_busy_nop script run noWrite noRead (by rw [hst]; exact St.noConfusion),
    sequencerEdge_decode (p := nopAtEdge x rest s) hst,
    decodeEdge_ok (p := nopAtEdge x rest s) ok]
  rfl

/-- Settles O39: a DECODE edge whose decoder answers Err raises that error in the state of encoding 0x8. -/
theorem decodeErrorRecordsAndRetries : Obligations.DecodeErrorRecordsAndRetries := by
  intro s x rest e script run noWrite noRead hst err
  rw [step_busy_nop script run noWrite noRead (by rw [hst]; exact St.noConfusion),
    sequencerEdge_decode (p := nopAtEdge x rest s) hst,
    decodeEdge_err (p := nopAtEdge x rest s) err, raise_eq,
    show (nopAtEdge x rest s).st.code = 0x8 by rw [nopAtEdge, hst]; rfl]
  rfl

/-! ### Beside a STATUS write -/

theorem ofOffset_eq_status {a : Byte} : HostReg.ofOffset a = .status ↔ wordIndex a = 1 := by
  revert a; decide

/-- A write at word index 1 is the write of STATUS. -/
theorem hostPart_status {x : Inputs} (write : x.hWr = true) (index : wordIndex x.hAddr = 1) (s : State) :
    hostPart x s = writeStatus x.hWdata (hostRead x.hRd x.hAddr s) := by
  rw [hostPart, hostEffect, if_pos write, hostWrite, ofOffset_eq_status.2 index]

theorem SeqRule.ovr_eq {p t : State} (rule : SeqRule p t) : t.ovr = p.ovr := by
  cases rule with
  | timeout | errorResponse | decodeError => rw [raise_eq]; split <;> rfl
  | waitRequest | waitResponse | acceptBind | acceptWrite | acceptRead => rw [countDown_eq]
  | stuck | bindDone | writeDone | readDone | settled | settling | decoded => rfl

/-- Settles O40: the rule runs on what the write left, sets DONE where it finishes, and keeps it elsewhere. -/
theorem doneSetBeatsDoneClear : Obligations.DoneSetBeatsDoneClear := by
  intro s t x rest script run write index busy hstep
  obtain ⟨q, next, rule⟩ := sequencerEdge_rule (p := hostPart x (atEdge x rest s))
    (by rwa [hostPart_st_of_busy (s := atEdge x rest s) busy])
  rw [step_busy script run busy, next] at hstep
  cases hstep
  rw [hostPart_status write index] at rule
  rw [rule.done_eq busy, rule.ovr_eq]
  exact ⟨fun idle => if_pos idle, fun still => if_neg still, rfl⟩

end Sys2Proof.Machine
end

section
/-! What an edge without reset can do, from IDLE and outside it: the transition table (40_sequencer.md R126), and which
edges change the results, the frame buffer and the configuration (10_state.md R27, R28, R30). -/

namespace Sys2Proof.Machine

open Sys2Proof

/-! ### The host's part in IDLE -/

theorem ofOffset_eq_ctrl {a : Byte} : HostReg.ofOffset a = .ctrl ↔ wordIndex a = 0 := by
  revert a; decide

/-- The registers that a host operation can write in IDLE without a command, put over a state. -/
def withHostRegs (s : State) (ie crcEn : Bool) (maxRetry : BitVec 4) (frame : Frame) (frameLen : Byte) (timeout : Reg32)
    (ovr done : Bool) (rdata : Reg32) (rvalid : Bool) : State :=
  { s with
    ie := ie, crcEn := crcEn, maxRetry := maxRetry, frame := frame, frameLen := frameLen, timeout := timeout,
    ovr := ovr, done := done, hRdata := rdata, hRvalid := rvalid }

/-- What the host's part does from IDLE, one constructor per way: it begins a command, or writes its own registers. -/
inductive IdleRule (x : Inputs) (s : State) : State → Prop where
  | start : x.hWr = true → wordIndex x.hAddr = 0 → x.hWdata.getLsbD 0 = true →
      IdleRule x s (beginAttempt (beginCommand .cycle (writeConfig x.hWdata (hostRead x.hRd x.hAddr s))))
  | decode : x.hWr = true → wordIndex x.hAddr = 0 → x.hWdata.getLsbD 0 = false → x.hWdata.getLsbD 1 = true →
      IdleRule x s { beginCommand .decodeOnly (writeConfig x.hWdata (hostRead x.hRd x.hAddr s)) with st := .decode }
  | registers (ie crcEn : Bool) (maxRetry : BitVec 4) (frame : Frame) (frameLen : Byte) (timeout : Reg32)
      (ovr done : Bool) (rdata : Reg32) (rvalid : Bool) :
      ¬(x.hWr = true ∧ wordIndex x.hAddr = 0 ∧ (x.hWdata.getLsbD 0 = true ∨ x.hWdata.getLsbD 1 = true)) →
      (frame ≠ s.frame ∨ frameLen ≠ s.frameLen →
        x.hWr = true ∧ (wordIndex x.hAddr = 6 ∨ wordIndex x.hAddr = 7 ∨ wordIndex x.hAddr = 8)) →
      (done = true → s.done = true) →
      IdleRule x s (withHostRegs s ie crcEn maxRetry frame frameLen timeout ovr done rdata rvalid)

theorem hostPart_idle {s : State} (idle : s.st = .idle) (x : Inputs) : IdleRule x s (hostPart x s) := by
  have kept : (hostRead x.hRd x.hAddr s).st = .idle := idle
  rw [hostPart, hostEffect]
  cases write : x.hWr with
  | false => exact .registers _ _ _ _ _ _ _ _ _ _ (by simp [write]) (by simp) id
  | true =>
    rw [if_pos rfl, hostWrite]
    have index := ofOffset_index x.hAddr
    have notCtrl : ∀ {P : Prop}, HostReg.ofOffset x.hAddr ≠ .ctrl → ¬(x.hWr = true ∧ wordIndex x.hAddr = 0 ∧ P) :=
      fun other ctrl => other (ofOffset_eq_ctrl.2 ctrl.2.1)
    cases reg : HostReg.ofOffset x.hAddr <;> simp only [reg] at index ⊢
    case ctrl =>
      cases command : x.hWdata.getLsbD 0 with
      | true =>
        rw [if_pos rfl, startCommand_idle (s := writeConfig x.hWdata (hostRead x.hRd x.hAddr s)) kept]
        exact .start write index command
      | false =>
        cases command' : x.hWdata.getLsbD 1 with
        | true =>
          rw [if_neg (by decide), if_pos rfl, decodeCommand_idle (s := writeConfig x.hWdata (hostRead x.hRd x.hAddr s)) kept]
          exact .decode write index command command'
        | false =>
          rw [if_neg (by decide), if_neg (by decide), writeConfig_idle _ kept]
          exact .registers _ _ _ _ _ _ _ _ _ _ (by simp [-BitVec.getLsbD_eq_getElem, command, command']) (by simp) id
    case status =>
      exact .registers _ _ _ _ _ _ _ _ _ _ (notCtrl (by simp [reg])) (by simp) fun done => (Bool.and_eq_true_iff.1 done).1
    case frameLo =>
      rw [writeFrameLo_idle _ kept]
      exact .registers _ _ _ _ _ _ _ _ _ _ (notCtrl (by simp [reg])) (fun _ => ⟨write, .inl index⟩) id
    case frameHi =>
      rw [writeFrameHi_idle _ kept]
      exact .registers _ _ _ _ _ _ _ _ _ _ (notCtrl (by simp [reg])) (fun _ => ⟨write, .inr (.inl index)⟩) id
    case frameLen =>
      rw [writeFrameLen_idle _ kept]
      exact .registers _ _ _ _ _ _ _ _ _ _ (notCtrl (by simp [reg])) (fun _ => ⟨write, .inr (.inr index)⟩) id
    case timeout =>
      rw [writeTimeout_idle _ kept]
      exact .registers _ _ _ _ _ _ _ _ _ _ (notCtrl (by simp [reg])) (by simp) id
    all_goals exact .registers _ _ _ _ _ _ _ _ _ _ (notCtrl (by simp [reg])) (by simp) id

/-! ### Inversion of a step -/

/-- An edge without reset: from IDLE the host's part, elsewhere a rule after the host's flags. -/
theorem edge_cases {p t : State} (run : p.inp.rst = false) (hedge : edge p = .next t) :
    (p.st = .idle ∧ IdleRule p.inp { p with cancelQ := false } t) ∨
    (p.st ≠ .idle ∧ ∃ ie ovr done rdata rvalid, (done = true → p.done = true) ∧
      SeqRule (withHostFlags { p with cancelQ := false } ie ovr done rdata rvalid) t) := by
  by_cases idle : p.st = .idle
  · rw [edge_idle run idle] at hedge
    cases hedge
    exact .inl ⟨idle, hostPart_idle (s := { p with cancelQ := false }) idle p.inp⟩
  · obtain ⟨ie, ovr, done, rdata, rvalid, host, clears⟩ := hostPart_busy (s := { p with cancelQ := false }) idle p.inp
    rw [edge_busy run idle, host] at hedge
    obtain ⟨q, next, rule⟩ :=
      sequencerEdge_rule (p := withHostFlags { p with cancelQ := false } ie ovr done rdata rvalid) idle
    cases next.symm.trans hedge
    exact .inr ⟨idle, ie, ovr, done, rdata, rvalid, clears, rule⟩

/-- The same for a step whose cycle is scripted. -/
theorem step_cases {s t : State} {x : Inputs} {rest : List Inputs} (script : s.script = x :: rest) (run : x.rst = false)
    (hstep : step s = .next t) :
    (s.st = .idle ∧ IdleRule x (atEdge x rest s) t) ∨
    (s.st ≠ .idle ∧ ∃ ie ovr done rdata rvalid, (done = true → s.done = true) ∧
      SeqRule (withHostFlags (atEdge x rest s) ie ovr done rdata rvalid) t) := by
  rw [step, loadInputs_cons script] at hstep
  exact edge_cases (p := { s with inp := x, script := rest }) run hstep

/-! ### The transition table -/

/-- The target of the table's `err→` (40_sequencer.md R120, R126). -/
abbrev errSt (p : State) : St := if p.mode = .cycle ∧ p.attempt < p.maxRetry then .bindReq else .idle

section
variable {p t : State} {st nxt : St} (next : sequencerEdge p p = .next t) (hst : p.st = st)
include next hst

/-- A REQ state times out, moves on when its request is accepted, or stays. -/
theorem sequencerEdge_req_st {i : Instr} (request : RequestOf i st nxt) :
    t.st = if p.toCnt = 1 then errSt p else if p.inp.bReqReady then nxt else st := by
  subst hst
  cases (sequencerEdge_request request).symm.trans next
  rw [requestEdge]
  split
  · rw [takeTimeout_eq, raise_st_eq]
  · rw [countDown_eq]; split <;> rfl

/-- A RSP state takes the response, or times out, or stays. -/
theorem sequencerEdge_rsp_st (rsp : st.isRsp = true) (success : ∀ n data, (respond false n data p).st = nxt) :
    t.st = if p.inp.bRspValid then (if p.inp.bRspErr then errSt p else nxt) else if p.toCnt = 1 then errSt p else st := by
  subst hst
  cases valid : p.inp.bRspValid with
  | false =>
    cases (sequencerEdge_silent rsp valid).symm.trans next
    rw [waitEdge]
    split
    · rw [takeTimeout_eq, raise_st_eq]; rfl
    · rw [countDown_eq]; rfl
  | true =>
    cases (sequencerEdge_response rsp valid).symm.trans next
    cases err : p.inp.bRspErr with
    | false => exact success ..
    | true => rw [respond_error rsp, raise_st_eq]; rfl

omit hst in
theorem sequencerEdge_settle_st (hst : p.st = .settle) : t.st = if p.settleCnt = 0 then .readReq else .settle := by
  cases (sequencerEdge_settle hst).symm.trans next
  rw [settleEdge]
  split
  · rfl
  · exact hst

omit hst in
theorem sequencerEdge_unused_st {k : Fin 7} (hst : p.st = .unused k) : t.st = .unused k := by
  cases (sequencerEdge_quiet (by rw [hst]; rfl) (by rw [hst]; rfl)).symm.trans next
  rw [hst]
  exact hst

end

/-- Settles O41: from IDLE the host's part, from each other state its rule, which the host's flags do not touch. -/
theorem transitionsFollowTheTable : Obligations.TransitionsFollowTheTable := by
  rintro s t x rest _ script run hstep rfl
  rcases step_cases script run hstep with ⟨idle, rule⟩ | ⟨busy, ie, ovr, done, rdata, rvalid, -, rule⟩
  · rw [idle]
    cases rule with
    | start write index command => exact (if_pos ⟨write, index, command⟩).symm
    | decode write index noStart command =>
      show _ = if _ then _ else _
      rw [if_neg (by simp [-BitVec.getLsbD_eq_getElem, noStart]), if_pos ⟨write, index, command⟩]
    | registers _ _ _ _ _ _ _ _ _ _ noCommand =>
      show _ = if _ then _ else _
      rw [if_neg fun h => noCommand ⟨h.1, h.2.1, .inl h.2.2⟩, if_neg fun h => noCommand ⟨h.1, h.2.1, .inr h.2.2⟩]
      exact idle
  · have next := rule.sequencerEdge_eq
    cases hst : s.st with
    | idle => exact absurd hst busy
    | bindReq => exact sequencerEdge_req_st next hst (i := .bind) (.inl rfl)
    | writeReq => exact sequencerEdge_req_st next hst (i := .writeTrigger) (.inr (.inl rfl))
    | readReq => exact sequencerEdge_req_st next hst (i := .readFrame) (.inr (.inr rfl))
    | bindRsp => exact sequencerEdge_rsp_st next hst rfl fun n data => by rw [respond_bindRsp (by exact hst)]; rfl
    | writeRsp => exact sequencerEdge_rsp_st next hst rfl fun n data => by rw [respond_writeRsp (by exact hst)]; rfl
    | readRsp => exact sequencerEdge_rsp_st next hst rfl fun n data => by rw [respond_readRsp (by exact hst)]; rfl
    | settle => exact (sequencerEdge_settle_st next hst :)
    | decode =>
      cases (sequencerEdge_decode (by exact hst)).symm.trans next
      show match decodeFrame s.cfg s.frame s.frameLen s.crcEn with | .ok _ _ _ _ => _ | .err _ => _
      split
      next ok => rw [decodeEdge_ok (by exact ok)]; rfl
      next err => rw [decodeEdge_err (by exact err), raise_st_eq]; rfl
    | unused k => exact sequencerEdge_unused_st next hst

end Sys2Proof.Machine
end

section
/-! Which edges change the results, the frame buffer and the configuration (10_state.md R27, R28, R30). -/

namespace Sys2Proof.Machine

open Sys2Proof

/-- A rule keeps the results, or it is the success of DECODE. -/
theorem SeqRule.results {p t : State} (rule : SeqRule p t) :
    (t.rawHum = p.rawHum ∧ t.rawTemp = p.rawTemp ∧ t.hum = p.hum ∧ t.temp = p.temp ∧ t.valid = p.valid) ∨
    (p.st = .decode ∧ ∃ rawH rawT hb tb, decodeFrame p.cfg p.frame p.frameLen p.crcEn = .ok rawH rawT hb tb ∧
      t = complete rawH rawT hb tb p) := by
  cases rule with
  | decoded _ _ _ _ hst ok => exact .inr ⟨hst, _, _, _, _, ok, rfl⟩
  | timeout | errorResponse | decodeError => rw [raise_eq]; split <;> exact .inl ⟨rfl, rfl, rfl, rfl, rfl⟩
  | waitRequest | waitResponse | acceptBind | acceptWrite | acceptRead =>
    rw [countDown_eq]; exact .inl ⟨rfl, rfl, rfl, rfl, rfl⟩
  | stuck | bindDone | writeDone | readDone | settled | settling => exact .inl ⟨rfl, rfl, rfl, rfl, rfl⟩

/-- A rule keeps the frame buffer, or it is the success of READ_RSP. -/
theorem SeqRule.frame {p t : State} (rule : SeqRule p t) :
    (t.frame = p.frame ∧ t.frameLen = p.frameLen) ∨
    (p.st = .readRsp ∧ p.inp.bRspValid = true ∧ p.inp.bRspErr = false ∧
      t = Machine.readDone p.inp.bRspCount p.inp.bRspRdata p) := by
  cases rule with
  | readDone hst valid noErr => exact .inr ⟨hst, valid, noErr, rfl⟩
  | timeout | errorResponse | decodeError => rw [raise_eq]; split <;> exact .inl ⟨rfl, rfl⟩
  | waitRequest | waitResponse | acceptBind | acceptWrite | acceptRead => rw [countDown_eq]; exact .inl ⟨rfl, rfl⟩
  | stuck | bindDone | writeDone | decoded | settled | settling => exact .inl ⟨rfl, rfl⟩

/-- No rule writes the parameters or the configuration. -/
theorem SeqRule.config {p t : State} (rule : SeqRule p t) :
    t.cfg = p.cfg ∧ t.crcEn = p.crcEn ∧ t.maxRetry = p.maxRetry ∧ t.timeout = p.timeout := by
  cases rule with
  | timeout | errorResponse | decodeError => rw [raise_eq]; split <;> exact ⟨rfl, rfl, rfl, rfl⟩
  | waitRequest | waitResponse | acceptBind | acceptWrite | acceptRead => rw [countDown_eq]; exact ⟨rfl, rfl, rfl, rfl⟩
  | stuck | bindDone | writeDone | readDone | decoded | settled | settling => exact ⟨rfl, rfl, rfl, rfl⟩

/-- Settles O42: from IDLE the host writes no result; elsewhere only the success of DECODE does. -/
theorem resultsChangeOnlyOnSuccess : Obligations.ResultsChangeOnlyOnSuccess := by
  intro s t x rest script run hstep
  rcases step_cases script run hstep with ⟨-, rule⟩ | ⟨-, _, _, _, _, _, -, rule⟩
  · cases rule <;> exact .inl ⟨rfl, rfl, rfl, rfl, rfl⟩
  · rcases rule.results with kept | ⟨hst, _, _, _, _, ok, rfl⟩
    · exact .inl kept
    · exact .inr ⟨hst, rfl, rfl, rfl, rfl, ok⟩

/-- Settles O43: from IDLE only the host's frame writes touch the buffer; elsewhere only the success of READ_RSP. -/
theorem frameChangesOnlyByReadOrHost : Obligations.FrameChangesOnlyByReadOrHost := by
  intro s t x rest script run hstep changed
  rcases step_cases script run hstep with ⟨idle, rule⟩ | ⟨-, _, _, _, _, _, -, rule⟩
  · cases rule with
    | start | decode => rcases changed with h | h <;> exact absurd rfl h
    | registers _ _ _ _ _ _ _ _ _ _ _ written =>
      obtain ⟨write, index⟩ := written changed
      exact .inr ⟨idle, write, index⟩
  · rcases rule.frame with ⟨frame, frameLen⟩ | ⟨hst, valid, noErr, rfl⟩
    · exact absurd frameLen (changed.resolve_left (not_not_intro frame))
    · exact .inl ⟨hst, valid, noErr, rfl, rfl⟩

/-- Loading the inputs writes no register. -/
theorem loadInputs_cfg (s : State) : (loadInputs s).cfg = s.cfg := by
  obtain ⟨_, _, _, loaded⟩ := loadInputs_eq s
  rw [loaded]

/-- Settles O44: no rule writes the configuration, and outside IDLE the host does not either. -/
theorem configurationIsFixedDuringACommand : Obligations.ConfigurationIsFixedDuringACommand := by
  intro s t hstep
  constructor
  · rw [← loadInputs_cfg s]
    rw [step] at hstep
    cases rst : (loadInputs s).inp.rst with
    | true => rw [edge_rst rst] at hstep; cases hstep; rfl
    | false =>
      rcases edge_cases rst hstep with ⟨-, rule⟩ | ⟨-, _, _, _, _, _, -, rule⟩
      · cases rule <;> rfl
      · exact rule.config.1
  · intro x rest script run busy
    rcases step_cases script run hstep with ⟨idle, -⟩ | ⟨-, _, _, _, _, _, -, rule⟩
    · exact absurd idle busy
    · exact rule.config.2

end Sys2Proof.Machine
end

section
/-! Every step keeps the invariant of Safety.Inv: loading the inputs, the reset edge, the host's part from IDLE and
outside it, and each rule of the sequencer. -/

namespace Sys2Proof.Machine

open Sys2Proof Sys2Proof.Safety

variable {s p t : State}

/-! ### Inputs, reset and the host -/

/-- The invariant reads no input, no script and no draw, and holds with `cancel_q` dropped. -/
theorem inv_load (inv : Inv s) (x : Inputs) (rest : List Inputs) (n : Nat) :
    Inv { s with inp := x, script := rest, draws := n } :=
  { inv with }

theorem inv_dropCancel (inv : Inv s) : Inv { s with cancelQ := false } :=
  { inv with cancelAfterTimeout := fun cancel => by cases cancel }

theorem inv_loadInputs (inv : Inv s) : Inv (loadInputs s) := by
  obtain ⟨x, rest, n, loaded⟩ := loadInputs_eq s
  rw [loaded]
  exact inv_load inv x rest n

/-- A reset edge leaves the state after reset, but for the transport's binding, which nothing in IDLE asks for. -/
theorem inv_resetEdge (inv : Inv s) : Inv (resetEdge s) :=
  { inv_resetWith inv.cfgLegal with
    boundBeforeUse := fun bound => by rcases bound with h | h | h | h | h <;> cases h }

/-- Outside IDLE the host sets no DONE. -/
theorem inv_withHostFlags (inv : Inv s) (ie ovr : Bool) {done : Bool} (rdata : Reg32) (rvalid : Bool)
    (clears : done = true → s.done = true) : Inv (withHostFlags s ie ovr done rdata rvalid) :=
  { inv with
    doneIdle := fun h => inv.doneIdle (clears h)
    doneValid := fun h => inv.doneValid (clears h) }

/-- The states that no clause on requests, responses, settling or the binding speaks of. -/
theorem not_needsBinding {st : St} (other : st = .idle ∨ st = .bindReq ∨ st = .bindRsp ∨ st = .decode) :
    ¬(st = .writeReq ∨ st = .writeRsp ∨ st = .settle ∨ st = .readReq ∨ st = .readRsp) := by
  rcases other with rfl | rfl | rfl | rfl <;> decide

theorem not_onBus {st : St} (other : st = .idle ∨ st = .settle ∨ st = .decode) :
    ¬(st.isReq = true ∨ st.isRsp = true) := by
  rcases other with rfl | rfl | rfl <;> decide

theorem inv_idleRule {x : Inputs} (inv : Inv s) (idle : s.st = .idle) (quiet : s.cancelQ = false)
    (rule : IdleRule x s t) : Inv t := by
  cases rule with
  | start =>
    exact
      { inv with
        stLegal := fun k h => by cases h
        attemptBounded := fun _ => Nat.zero_le _
        decodeOnlyOffBus := fun mode => by cases mode
        settleBounded := fun settle => by cases settle
        timerArmed := fun _ => ⟨BitVec.le_refl _, Iff.rfl⟩
        errorLegal := .inl ⟨rfl, rfl, rfl⟩
        doneIdle := fun done => by cases done
        doneValid := fun done => by cases done
        cancelAfterTimeout := fun cancel => by cases quiet.symm.trans cancel
        boundBeforeUse := fun needs => absurd needs (not_needsBinding (.inr (.inl rfl))) }
  | decode =>
    exact
      { inv with
        stLegal := fun k h => by cases h
        attemptBounded := fun _ => Nat.zero_le _
        decodeOnlyOffBus := fun _ => .inr rfl
        settleBounded := fun settle => by cases settle
        timerArmed := fun onBus => absurd onBus (not_onBus (.inr (.inr rfl)))
        errorLegal := .inl ⟨rfl, rfl, rfl⟩
        doneIdle := fun done => by cases done
        doneValid := fun done => by cases done
        cancelAfterTimeout := fun cancel => by cases quiet.symm.trans cancel
        boundBeforeUse := fun needs => absurd needs (not_needsBinding (.inr (.inr (.inr rfl)))) }
  | registers _ _ _ _ _ _ _ _ _ _ _ _ clears =>
    exact
      { inv with
        attemptBounded := fun busy => absurd idle busy
        timerArmed := fun onBus => absurd onBus (not_onBus (.inl idle))
        doneIdle := fun _ => idle
        doneValid := fun done => inv.doneValid (clears done)
        cancelAfterTimeout := fun cancel => by cases quiet.symm.trans cancel }

/-! ### The rules -/

/-- A running command has not set DONE. -/
theorem done_of_busy (inv : Inv p) (busy : p.st ≠ .idle) : p.done = false := by
  cases done : p.done with
  | false => rfl
  | true => exact absurd (inv.doneIdle done) busy

/-- Only a CYCLE command is on the bus or settles. -/
theorem cycle_of_onBus (inv : Inv p) (busy : p.st ≠ .idle) (notDecode : p.st ≠ .decode) : p.mode = .cycle := by
  cases mode : p.mode with
  | cycle => rfl
  | decodeOnly => exact absurd (inv.decodeOnlyOffBus mode) (not_or.2 ⟨busy, notDecode⟩)

/-- A rule that only moves `st`, the counters, the binding and the frame buffer keeps the invariant, if the clauses on
what it moves hold. -/
theorem inv_move (inv : Inv p) (busy : p.st ≠ .idle) (notDecode : p.st ≠ .decode) (quiet : p.cancelQ = false)
    {st : St} {toCnt settleCnt : Reg32} {bound : Option Byte} {frame : Frame} {frameLen : Byte}
    (legal : ∀ k, st ≠ .unused k)
    (settle : st = .settle → settleCnt.toNat < p.cfg.settleCycles)
    (timer : st.isReq = true ∨ st.isRsp = true → toCnt ≤ p.timeout ∧ (toCnt = 0 ↔ p.timeout = 0))
    (binding : st = .writeReq ∨ st = .writeRsp ∨ st = .settle ∨ st = .readReq ∨ st = .readRsp →
      bound = some Config.sensorAddr) :
    Inv { p with st := st, toCnt := toCnt, settleCnt := settleCnt, bound := bound, frame := frame, frameLen := frameLen } :=
  { inv with
    stLegal := legal
    attemptBounded := fun _ => inv.attemptBounded busy
    decodeOnlyOffBus := fun mode => by rw [cycle_of_onBus inv busy notDecode] at mode; cases mode
    settleBounded := settle
    timerArmed := timer
    doneIdle := fun done => by rw [done_of_busy inv busy] at done; cases done
    cancelAfterTimeout := fun cancel => by rw [quiet] at cancel; cases cancel
    boundBeforeUse := binding }

/-- Counting keeps the promise of the timeout counter (40_sequencer.md R115). -/
theorem timer_countDown (timer : p.toCnt ≤ p.timeout ∧ (p.toCnt = 0 ↔ p.timeout = 0)) :
    (countDown p).toCnt ≤ p.timeout ∧ ((countDown p).toCnt = 0 ↔ p.timeout = 0) := by
  rw [countDown]
  split
  next above =>
    show p.toCnt - 1 ≤ p.timeout ∧ (p.toCnt - 1 = 0 ↔ p.timeout = 0)
    rw [← timer.2]
    exact ⟨by bv_omega, by bv_omega⟩
  next => exact timer

/-- Raising an error that may be raised here keeps the invariant; only a timeout comes with a cancel (60_exceptions.md
R200 to R204). -/
theorem inv_raise (inv : Inv p) (busy : p.st ≠ .idle) {e : ProtocolError} (may : mayRaise e p.st = true) {cancel : Bool}
    (ofTimeout : cancel = true → e = .timeout) : Inv (raise e { p with cancelQ := cancel }) := by
  have record : ErrorRecordLegal (raise e { p with cancelQ := cancel }) :=
    .inr ⟨e, p.st, may, by rw [raise_eq]; split <;> exact ⟨rfl, rfl, rfl⟩⟩
  rcases raise_cases e { p with cancelQ := cancel } with ⟨mode, left, retry⟩ | ⟨-, finish⟩
  · rw [retry] at record ⊢
    exact
      { inv with
        stLegal := fun k h => by cases h
        attemptBounded := fun _ => by
          show p.attempt + 1 ≤ p.maxRetry
          have : p.attempt < p.maxRetry := left
          bv_omega
        decodeOnlyOffBus := fun h => by cases mode.symm.trans h
        settleBounded := fun settle => by cases settle
        timerArmed := fun _ => ⟨BitVec.le_refl _, Iff.rfl⟩
        errorLegal := record
        doneIdle := fun done => by cases (done_of_busy inv busy).symm.trans done
        doneValid := fun done => by cases (done_of_busy inv busy).symm.trans done
        cancelAfterTimeout := fun cancelled => by
          rw [ofTimeout cancelled]
          exact ⟨.inr ⟨rfl, rfl⟩, rfl, rfl⟩
        boundBeforeUse := fun needs => absurd needs (not_needsBinding (.inr (.inl rfl))) }
  · rw [finish] at record ⊢
    exact
      { inv with
        stLegal := fun k h => by cases h
        attemptBounded := fun busy => absurd rfl busy
        decodeOnlyOffBus := fun _ => .inl rfl
        settleBounded := fun settle => by cases settle
        timerArmed := fun onBus => absurd onBus (not_onBus (.inl rfl))
        errorLegal := record
        doneIdle := fun _ => rfl
        doneValid := fun _ noError => absurd noError e.code_ne_zero
        cancelAfterTimeout := fun cancelled => by
          rw [ofTimeout cancelled]
          exact ⟨.inl rfl, rfl, rfl⟩
        boundBeforeUse := fun needs => absurd needs (not_needsBinding (.inl rfl)) }

/-- The success procedure leaves a Measurement: the decoder converts the two raw fields it answers. -/
theorem inv_complete (inv : Inv p) (quiet : p.cancelQ = false) {rawH rawT : BitVec 20} {hb tb : Reg32}
    (ok : decodeFrame p.cfg p.frame p.frameLen p.crcEn = .ok rawH rawT hb tb) : Inv (complete rawH rawT hb tb p) :=
  { inv with
    stLegal := fun k h => by cases h
    attemptBounded := fun busy => absurd rfl busy
    decodeOnlyOffBus := fun _ => .inl rfl
    settleBounded := fun settle => by cases settle
    timerArmed := fun onBus => absurd onBus (not_onBus (.inl rfl))
    errorLegal := .inl ⟨rfl, rfl, rfl⟩
    doneIdle := fun _ => rfl
    doneValid := fun _ _ => rfl
    resultsMatch := fun _ => by
      rcases decodeFrame_cases p.cfg p.frame p.frameLen p.crcEn with converted | ⟨e, err, -⟩
      · cases converted.symm.trans ok
        exact ⟨rfl, rfl⟩
      · cases err.symm.trans ok
    resultsReset := fun valid => by cases valid
    cancelAfterTimeout := fun cancel => by cases quiet.symm.trans cancel
    boundBeforeUse := fun needs => absurd needs (not_needsBinding (.inl rfl)) }

/-- SETTLE_CYCLES − 1 fits the settle counter at every legal parameter value (00_scope.md R6). -/
theorem settleCycles_ofNat {c : Params} (legal : c.Legal) :
    (BitVec.ofNat 32 (c.settleCycles - 1)).toNat = c.settleCycles - 1 ∧ 0 < c.settleCycles := by
  obtain ⟨low, high⟩ := legal
  have cycles : c.settleCycles = 80 * c.clkPerMs := rfl
  rw [BitVec.toNat_ofNat, cycles]
  omega

/-- A count, with or without a move to another state of the bus, keeps the invariant. -/
theorem inv_countDown (inv : Inv p) (quiet : p.cancelQ = false) (onBus : p.st.isReq = true ∨ p.st.isRsp = true) {st : St}
    (legal : ∀ k, st ≠ .unused k) (noSettle : st ≠ .settle)
    (binding : st = .writeReq ∨ st = .writeRsp ∨ st = .settle ∨ st = .readReq ∨ st = .readRsp →
      p.bound = some Config.sensorAddr) : Inv { countDown p with st := st } := by
  have busy : p.st ≠ .idle := fun hst => absurd onBus (not_onBus (.inl hst))
  have notDecode : p.st ≠ .decode := fun hst => absurd onBus (not_onBus (.inr (.inr hst)))
  have timer := timer_countDown (inv.timerArmed onBus)
  rw [countDown_eq] at timer ⊢
  exact inv_move inv busy notDecode quiet legal (fun settle => absurd settle noSettle) (fun _ => timer) binding

/-- Every rule keeps the invariant. -/
theorem inv_seqRule (inv : Inv p) (quiet : p.cancelQ = false) (busy : p.st ≠ .idle) (rule : SeqRule p t) : Inv t := by
  cases rule with
  | stuck k hst => exact absurd hst (inv.stLegal k)
  | waitRequest req notReady notDue =>
    have noSettle : p.st ≠ .settle := fun hst => absurd (.inl req) (not_onBus (.inr (.inl hst)))
    have := inv_countDown inv quiet (.inl req) inv.stLegal noSettle inv.boundBeforeUse
    rwa [countDown_eq] at this ⊢
  | waitResponse rsp silent notDue =>
    have noSettle : p.st ≠ .settle := fun hst => absurd (.inr rsp) (not_onBus (.inr (.inl hst)))
    have := inv_countDown inv quiet (.inr rsp) inv.stLegal noSettle inv.boundBeforeUse
    rwa [countDown_eq] at this ⊢
  | acceptBind hst ready notDue =>
    exact inv_countDown inv quiet (.inl (by rw [hst]; rfl)) nofun nofun fun needs =>
      absurd needs (not_needsBinding (.inr (.inr (.inl rfl))))
  | acceptWrite hst ready notDue =>
    exact inv_countDown inv quiet (.inl (by rw [hst]; rfl)) nofun nofun fun _ => inv.boundBeforeUse (.inl hst)
  | acceptRead hst ready notDue =>
    exact inv_countDown inv quiet (.inl (by rw [hst]; rfl)) nofun nofun fun _ =>
      inv.boundBeforeUse (.inr (.inr (.inr (.inl hst))))
  | timeout onBus due =>
    have may : mayRaise .timeout p.st = true := Bool.or_eq_true_iff.2 (onBus.imp_right And.left)
    exact inv_raise inv busy may fun _ => rfl
  | errorResponse rsp valid err =>
    exact inv_raise (e := .transport) inv busy rsp fun cancel => by cases quiet.symm.trans cancel
  | bindDone hst valid noErr =>
    exact inv_move inv busy (by rw [hst]; nofun) quiet nofun nofun (fun _ => ⟨BitVec.le_refl _, Iff.rfl⟩) fun _ => rfl
  | writeDone hst valid noErr =>
    obtain ⟨loaded, positive⟩ := settleCycles_ofNat inv.cfgLegal
    exact inv_move inv busy (by rw [hst]; nofun) quiet nofun (fun _ => by rw [loaded]; omega)
      (fun onBus => absurd onBus (not_onBus (.inr (.inl rfl)))) fun _ => inv.boundBeforeUse (.inr (.inl hst))
  | readDone hst valid noErr =>
    exact inv_move inv busy (by rw [hst]; nofun) quiet nofun nofun
      (fun onBus => absurd onBus (not_onBus (.inr (.inr rfl)))) fun needs =>
        absurd needs (not_needsBinding (.inr (.inr (.inr rfl))))
  | settled hst zero =>
    exact inv_move inv busy (by rw [hst]; nofun) quiet nofun nofun (fun _ => ⟨BitVec.le_refl _, Iff.rfl⟩)
      fun _ => inv.boundBeforeUse (.inr (.inr (.inl hst)))
  | settling hst nonzero =>
    have bound := inv.settleBounded hst
    exact inv_move inv busy (by rw [hst]; nofun) quiet inv.stLegal (fun _ => by bv_omega)
      (fun onBus => absurd onBus (not_onBus (.inr (.inl hst)))) inv.boundBeforeUse
  | decoded h t hb tb hst ok => exact inv_complete inv quiet ok
  | decodeError e hst err =>
    have may : mayRaise e p.st = true := by
      rcases decodeFrame_cases p.cfg p.frame p.frameLen p.crcEn with converted | ⟨_, err', isOne⟩
      · cases converted.symm.trans err
      · cases err'.symm.trans err
        rcases isOne with rfl | rfl | rfl <;> rw [hst] <;> rfl
    exact inv_raise inv busy may fun cancel => by cases quiet.symm.trans cancel

theorem inv_edge (inv : Inv p) (hedge : edge p = .next t) : Inv t := by
  cases rst : p.inp.rst with
  | true =>
    cases (edge_rst rst).symm.trans hedge
    exact inv_resetEdge inv
  | false =>
    rcases edge_cases rst hedge with ⟨idle, rule⟩ | ⟨busy, _, _, _, _, _, clears, rule⟩
    · exact inv_idleRule (inv_dropCancel inv) idle rfl rule
    · exact inv_seqRule (inv_withHostFlags (inv_dropCancel inv) _ _ _ _ clears) rfl busy rule

/-- Settles O5: loading the inputs keeps the invariant, and so does each way an edge can go. -/
theorem stepKeepsInvariant : Obligations.StepKeepsInvariant :=
  fun _ _ inv hstep => inv_edge (inv_loadInputs inv) hstep

end Sys2Proof.Machine
end

section
/-! `b_cancel` marks the timeouts of accepted requests, so the transport owes what `st` awaits (40_sequencer.md R116,
R117, R124, R130); and at TIMEOUT = 1 it can last two cycles. -/

namespace Sys2Proof.Machine

open Sys2Proof Sys2Proof.Safety

/-! ### When `cancel_q` is set -/

/-- The edge is a timeout of a request that the transport has accepted by then (40_sequencer.md R116). -/
def CancelDue (p : State) : Prop :=
  p.toCnt = 1 ∧ (p.st.isReq = true ∧ p.inp.bReqReady = true ∨ p.st.isRsp = true ∧ p.inp.bRspValid = false)

theorem not_cancelDue_of_off {p : State} (noReq : p.st.isReq = false) (noRsp : p.st.isRsp = false) : ¬CancelDue p := by
  simp [CancelDue, noReq, noRsp]

theorem not_cancelDue_of_response {p : State} (rsp : p.st.isRsp = true) (valid : p.inp.bRspValid = true) :
    ¬CancelDue p := by
  simp [CancelDue, St.isReq_eq_false_of_isRsp rsp, valid]

/-- From a state without cancel, the timeout rule sets it if the request was accepted, and no other rule does. -/
theorem SeqRule.cancelQ_iff {p t : State} (rule : SeqRule p t) (quiet : p.cancelQ = false) :
    t.cancelQ = true ↔ CancelDue p := by
  have unset : ∀ {q : State}, q.cancelQ = p.cancelQ → ¬CancelDue p → (q.cancelQ = true ↔ CancelDue p) :=
    fun kept notDue => by rw [kept, quiet]; exact iff_of_false Bool.false_ne_true notDue
  cases rule with
  | timeout onBus due =>
    rw [raise_cancelQ]
    show (p.cancelQ || accepted p) = true ↔ _
    rw [quiet, Bool.false_or]
    rcases onBus with req | ⟨rsp, silent⟩
    · have noRsp : p.st.isRsp = false := by cases hst : p.st <;> simp_all [St.isReq, St.isRsp]
      simp [accepted_of_isReq req, CancelDue, due, req, noRsp]
    · simp [accepted_of_isRsp rsp, CancelDue, due, rsp, silent]
  | waitRequest _ _ notDue | waitResponse _ _ notDue | acceptBind _ _ notDue | acceptWrite _ _ notDue
  | acceptRead _ _ notDue => exact unset (by rw [countDown_eq]) fun h => notDue h.1
  | errorResponse rsp valid => exact unset (raise_cancelQ ..) (not_cancelDue_of_response rsp valid)
  | bindDone hst valid | writeDone hst valid | readDone hst valid =>
    exact unset rfl (not_cancelDue_of_response (by rw [hst]; rfl) valid)
  | stuck _ hst | settled hst | settling hst | decoded _ _ _ _ hst =>
    exact unset rfl (not_cancelDue_of_off (by rw [hst]; rfl) (by rw [hst]; rfl))
  | decodeError _ hst => exact unset (raise_cancelQ ..) (not_cancelDue_of_off (by rw [hst]; rfl) (by rw [hst]; rfl))

/-- What an edge makes of `cancel_q`, scripted or drawn, reset or not. -/
theorem edge_cancelQ_iff {p t : State} (hedge : edge p = .next t) :
    t.cancelQ = true ↔ p.inp.rst = false ∧ CancelDue p := by
  cases rst : p.inp.rst with
  | true =>
    cases (edge_rst rst).symm.trans hedge
    simp
  | false =>
    rcases edge_cases rst hedge with ⟨idle, rule⟩ | ⟨busy, _, _, _, _, _, -, rule⟩
    · have noCancel : ¬CancelDue p := not_cancelDue_of_off (by rw [idle]; rfl) (by rw [idle]; rfl)
      have quiet : t.cancelQ = false := by cases rule <;> rfl
      simp [noCancel, quiet]
    · exact (rule.cancelQ_iff rfl).trans (by simp [CancelDue, withHostFlags])

/-! ### The transport's account -/

/-- What an agreeing account owes after a cycle with inputs x in the state st, the next cancel not yet heeded. -/
def owedAfter (st : St) (x : Inputs) : Account :=
  if st.isReq && x.bReqReady then { last := st.request, older := [] }
  else if st.isRsp && !x.bRspValid then { last := st.awaited, older := [] }
  else Account.clear

theorem Account.cycle_eq_owedAfter {s : State} {a : Account} (agrees : a.Agrees s) (x : Inputs) :
    a.cycle s.outputs x = owedAfter s.st x := by
  rw [Account.cycle_of_agrees agrees, owedAfter]
  cases s.st <;> cases x.bReqReady <;> cases x.bRspValid <;> rfl

theorem owedAfter_off {st : St} (noReq : st.isReq = false) (noRsp : st.isRsp = false) (x : Inputs) :
    owedAfter st x = Account.clear := by
  rw [owedAfter, noReq, noRsp]; rfl

theorem owedAfter_accepted {st : St} {x : Inputs} (req : st.isReq = true) (ready : x.bReqReady = true) :
    owedAfter st x = { last := st.request, older := [] } := by
  rw [owedAfter, req, ready]; rfl

theorem owedAfter_notReady {st : St} {x : Inputs} (req : st.isReq = true) (notReady : x.bReqReady = false) :
    owedAfter st x = Account.clear := by
  have noRsp : st.isRsp = false := by cases st <;> simp_all [St.isReq, St.isRsp]
  rw [owedAfter, notReady, noRsp, Bool.and_false]; rfl

theorem owedAfter_silent {st : St} {x : Inputs} (rsp : st.isRsp = true) (silent : x.bRspValid = false) :
    owedAfter st x = { last := st.awaited, older := [] } := by
  rw [owedAfter, St.isReq_eq_false_of_isRsp rsp, rsp, silent]; rfl

theorem owedAfter_answered {st : St} {x : Inputs} (rsp : st.isRsp = true) (valid : x.bRspValid = true) :
    owedAfter st x = Account.clear := by
  rw [owedAfter, St.isReq_eq_false_of_isRsp rsp, valid, Bool.not_true, Bool.and_false]; rfl

/-- Without a cancel to heed, agreeing is owing exactly what `st` awaits. -/
theorem Account.agrees_of_eq {t : State} {a : Account} (noCancel : t.cancelQ = false)
    (owed : a = { last := t.st.awaited, older := [] }) : a.Agrees t := by
  rw [Account.Agrees, State.outputs_bCancel, noCancel, Account.afterCancel_false, owed]

theorem raise_awaited (e : ProtocolError) (s : State) : (raise e s).st.awaited = none := by
  rcases raise_st e s with hst | hst <;> rw [hst] <;> rfl

/-- After a rule the account owes what the new `st` awaits. -/
theorem SeqRule.agrees {p t : State} (rule : SeqRule p t) (quiet : p.cancelQ = false) :
    (owedAfter p.st p.inp).Agrees t := by
  cases rule with
  | timeout onBus due =>
    rw [Account.Agrees, State.outputs_bCancel, raise_cancelQ, raise_awaited]
    show (owedAfter p.st p.inp).afterCancel (p.cancelQ || accepted p) = _
    rw [quiet, Bool.false_or]
    rcases onBus with req | ⟨rsp, silent⟩
    · rw [accepted_of_isReq req]
      cases ready : p.inp.bReqReady with
      | true => rw [owedAfter_accepted req ready]; rfl
      | false => rw [owedAfter_notReady req ready]; rfl
    · rw [accepted_of_isRsp rsp, owedAfter_silent rsp silent]; rfl
  | waitRequest req notReady =>
    have nothing : p.st.awaited = none := by cases hst : p.st <;> simp_all [St.isReq, St.awaited]
    rw [countDown_eq, owedAfter_notReady req notReady]
    exact Account.agrees_of_eq quiet (by rw [nothing]; rfl)
  | waitResponse rsp silent =>
    rw [countDown_eq, owedAfter_silent rsp silent]
    exact Account.agrees_of_eq quiet rfl
  | acceptBind hst ready | acceptWrite hst ready | acceptRead hst ready =>
    rw [countDown_eq, owedAfter_accepted (by rw [hst]; rfl) ready, hst]
    exact Account.agrees_of_eq quiet rfl
  | errorResponse rsp valid =>
    rw [owedAfter_answered rsp valid]
    exact Account.agrees_of_eq ((raise_cancelQ ..).trans quiet) (by rw [raise_awaited]; rfl)
  | bindDone hst valid | writeDone hst valid | readDone hst valid =>
    rw [owedAfter_answered (by rw [hst]; rfl) valid]
    exact Account.agrees_of_eq quiet rfl
  | settled hst | decoded _ _ _ _ hst =>
    rw [owedAfter_off (by rw [hst]; rfl) (by rw [hst]; rfl)]
    exact Account.agrees_of_eq quiet rfl
  | stuck _ hst | settling hst =>
    rw [owedAfter_off (by rw [hst]; rfl) (by rw [hst]; rfl)]
    exact Account.agrees_of_eq quiet (by rw [hst]; rfl)
  | decodeError _ hst =>
    rw [owedAfter_off (by rw [hst]; rfl) (by rw [hst]; rfl)]
    exact Account.agrees_of_eq ((raise_cancelQ ..).trans quiet) (by rw [raise_awaited]; rfl)

/-- The cycle after a timeout is not itself a timeout, unless TIMEOUT is 1. -/
theorem not_cancelDue_of_cancelQ {s : State} (inv : Inv s) (notOne : s.timeout ≠ 1) (cancel : s.cancelQ = true) :
    ¬CancelDue s := by
  obtain ⟨idle | ⟨-, fresh⟩, -, -⟩ := inv.cancelAfterTimeout cancel
  · exact not_cancelDue_of_off (by rw [idle]; rfl) (by rw [idle]; rfl)
  · exact fun ⟨due, _⟩ => notOne (fresh.symm.trans due)

/-- Settles O50: `cancel_q` follows the timeouts, the account follows the rules, and the cycle after a timeout counts from
TIMEOUT again. -/
theorem cancelFollowsATimeoutAndLastsOneCycleUnlessTimeoutIsOne :
    Obligations.CancelFollowsATimeoutAndLastsOneCycleUnlessTimeoutIsOne := by
  refine ⟨?_, ?_, ?_⟩
  · intro s t x rest script hstep
    rw [step, loadInputs_cons script] at hstep
    exact edge_cancelQ_iff hstep
  · intro s t x rest a script run hstep agrees
    rw [a.cycle_eq_owedAfter agrees]
    rcases step_cases script run hstep with ⟨idle, rule⟩ | ⟨-, _, _, _, _, _, -, rule⟩
    · rw [owedAfter_off (by rw [idle]; rfl) (by rw [idle]; rfl)]
      cases rule with
      | start | decode => exact Account.agrees_of_eq rfl rfl
      | registers => exact Account.agrees_of_eq rfl (by rw [withHostRegs, atEdge, idle]; rfl)
    · exact rule.agrees rfl
  · intro s t inv notOne cancel hstep
    obtain ⟨x, rest, n, loaded⟩ := loadInputs_eq s
    rw [step, loaded] at hstep
    rw [← Bool.not_eq_true, edge_cancelQ_iff hstep]
    exact fun h => not_cancelDue_of_cancelQ (inv_load inv x rest n) notOne cancel h.2

/-! ### Two cycles at TIMEOUT = 1 -/

theorem inv_runFor {s : State} (n : Nat) (inv : Inv s) : Inv (runFor n s) := by
  induction n generalizing s with
  | zero => exact inv
  | succ n ih =>
    obtain ⟨t, hstep⟩ := everyStepAnswersNext s
    rw [runFor_succ n hstep]
    exact ih (stepKeepsInvariant s t inv hstep)

/-- From reset, three cycles: TIMEOUT is set to 1, a START with MAX_RETRY = 3 presents a BIND, and the transport accepts
it at the edge at which it times out. In the fourth cycle it is ready again. -/
def afterCancel : State :=
  runFor 3
    { State.reset with
      script := [Inputs.ofHostWord 0x22800000001, Inputs.ofHostWord 0x20000000301, Inputs.ready, Inputs.ready] }

theorem inv_afterCancel : Inv afterCancel :=
  inv_runFor 3 (inv_load resetMeetsInvariant.2 State.reset.inp _ State.reset.draws)

/-- Refutes O49: `afterCancel` has `b_cancel` = 1, and so has the state after its next edge. -/
theorem not_cancelNeverLastsTwoCycles : ¬ Obligations.CancelNeverLastsTwoCycles := by
  intro never
  have cancel : afterCancel.cancelQ = true := by decide +kernel
  have again : (runFor 1 afterCancel).cancelQ = true := by decide +kernel
  obtain ⟨t, hstep⟩ := everyStepAnswersNext afterCancel
  rw [runFor_succ 0 hstep] at again
  cases again.symm.trans (never afterCancel t inv_afterCancel cancel hstep)

end Sys2Proof.Machine
end

section
/-! Runs without reset: states that keep the block (40_sequencer.md R127, 70_reset_and_hazards.md R233), the settle time
(40_sequencer.md R111), and the bound on a command (70_reset_and_hazards.md R251). -/

namespace Sys2Proof.Machine

open Sys2Proof Sys2Proof.Safety

/-! ### One step of a run -/

theorem SeqRule.script_eq {p t : State} (rule : SeqRule p t) : t.script = p.script := by
  cases rule with
  | timeout | errorResponse | decodeError => rw [raise_eq]; split <;> rfl
  | waitRequest | waitResponse | acceptBind | acceptWrite | acceptRead => rw [countDown_eq]
  | stuck | bindDone | writeDone | readDone | settled | settling | decoded => rfl

theorem step_script {s t : State} {x : Inputs} {rest : List Inputs} (script : s.script = x :: rest) (run : x.rst = false)
    (hstep : step s = .next t) : t.script = rest := by
  rcases step_cases script run hstep with ⟨-, rule⟩ | ⟨-, _, _, _, _, _, -, rule⟩
  · cases rule <;> rfl
  · exact rule.script_eq

/-- A run whose next n + 1 cycles are scripted and free of reset takes one such step, and goes on for n more. -/
theorem step_of_noReset {n : Nat} {s : State} (noReset : NoResetFor (n + 1) s) :
    ∃ x rest t, s.script = x :: rest ∧ x.rst = false ∧ step s = .next t ∧ NoResetFor n t := by
  obtain ⟨long, quiet⟩ := noReset
  obtain ⟨x, rest, script⟩ := List.exists_cons_of_length_pos (Nat.zero_lt_of_lt long)
  rw [script, List.take_succ_cons, List.forall_mem_cons] at quiet
  obtain ⟨t, hstep⟩ := everyStepAnswersNext s
  have next := step_script script quiet.1 hstep
  rw [script, List.length_cons] at long
  exact ⟨x, rest, t, script, quiet.1, hstep, by rw [next]; omega, by rw [next]; exact quiet.2⟩

/-- A property that every step without reset keeps under inputs that satisfy Q holds along a run under such inputs. -/
theorem runFor_keeps {P : State → Prop} {Q : Inputs → Prop}
    (keeps : ∀ s t x rest, s.script = x :: rest → x.rst = false → Q x → P s → step s = .next t → P t)
    (n : Nat) (s : State) (start : P s) (noReset : NoResetFor n s) (inputs : ∀ x ∈ s.script.take n, Q x) :
    P (runFor n s) := by
  induction n generalizing s with
  | zero => exact start
  | succ n ih =>
    obtain ⟨x, rest, t, script, run, hstep, later⟩ := step_of_noReset noReset
    rw [script, List.take_succ_cons, List.forall_mem_cons] at inputs
    rw [runFor_succ n hstep]
    refine ih t (keeps s t x rest script run inputs.1 start hstep) later ?_
    rw [step_script script run hstep]
    exact inputs.2

/-! ### States that keep the block -/

/-- BUSY reads 1 outside IDLE. -/
theorem busy_reads_one {s : State} (busy : s.st ≠ .idle) : (memRead s 0x04).getLsbD 0 = true := by
  obtain ⟨bit, -⟩ := statusReadsItsFields s _ rfl
  rw [bit]
  exact decide_eq_true busy

/-- Settles O47: no rule leaves an unused encoding. -/
theorem unusedStateIsStuckUntilReset : Obligations.UnusedStateIsStuckUntilReset := by
  intro n s k hst noReset
  have stuck : (runFor n s).st = .unused k := by
    refine runFor_keeps (P := fun s => s.st = .unused k) (Q := fun _ => True) ?_ n s hst noReset fun _ _ => trivial
    intro s t x rest script run _ hst hstep
    rcases step_cases script run hstep with ⟨idle, -⟩ | ⟨-, _, _, _, _, _, -, rule⟩
    · rw [hst] at idle; cases idle
    · exact sequencerEdge_unused_st rule.sequencerEdge_eq hst
  exact ⟨stuck, busy_reads_one (by rw [stuck]; nofun)⟩

/-- The transport gives the state st nothing to go on with. -/
def Stalls (st : St) (x : Inputs) : Prop :=
  st.isReq = true ∧ x.bReqReady = false ∨ st.isRsp = true ∧ x.bRspValid = false

/-- With the timeout counter at 0, a stalled transport keeps `st` and the counter. -/
theorem SeqRule.of_stalls {p t : State} (rule : SeqRule p t) (off : p.toCnt = 0) (stalls : Stalls p.st p.inp) :
    t.st = p.st ∧ t.toCnt = 0 := by
  have notDue : p.toCnt ≠ 1 := by rw [off]; decide
  have counted : (countDown p).st = p.st ∧ (countDown p).toCnt = 0 := by rw [countDown_eq, off]; exact ⟨rfl, rfl⟩
  have next := rule.sequencerEdge_eq
  rcases stalls with ⟨req, notReady⟩ | ⟨rsp, silent⟩
  · obtain ⟨i, nxt, request⟩ := exists_requestOf req
    rw [sequencerEdge_request request, requestEdge_wait notDue notReady] at next
    cases next
    exact counted
  · rw [sequencerEdge_silent rsp silent, waitEdge, if_neg notDue] at next
    cases next
    exact counted

/-- Settles O46: with `timeout` = 0 the invariant has the counter at 0, and a stalled edge keeps state and counter. -/
theorem stalledTransportHangsTheBlock : Obligations.StalledTransportHangsTheBlock := by
  intro n s inv off noReset stalled
  have onBus : s.st.isReq = true ∨ s.st.isRsp = true := stalled.imp And.left And.left
  have busy : s.st ≠ .idle := fun idle => absurd onBus (not_onBus (.inl idle))
  have stuck : (runFor n s).st = s.st ∧ (runFor n s).toCnt = 0 := by
    refine runFor_keeps (P := fun s' => s'.st = s.st ∧ s'.toCnt = 0) (Q := Stalls s.st) ?_ n s
      ⟨rfl, (inv.timerArmed onBus).2.2 off⟩ noReset ?_
    · rintro s' t x rest script run stalls ⟨hst, zero⟩ hstep
      rcases step_cases script run hstep with ⟨idle, -⟩ | ⟨-, _, _, _, _, _, -, rule⟩
      · exact absurd (hst.symm.trans idle) busy
      · obtain ⟨kept, count⟩ := rule.of_stalls zero (hst.symm ▸ stalls)
        exact ⟨kept.trans hst, count⟩
    · rcases stalled with ⟨req, inputs⟩ | ⟨rsp, inputs⟩
      · exact fun x hx => .inl ⟨req, inputs x hx⟩
      · exact fun x hx => .inr ⟨rsp, inputs x hx⟩
  exact ⟨stuck.1, busy_reads_one (by rw [stuck.1]; exact busy)⟩

/-! ### The settle time -/

/-- One edge of SETTLE, whatever the host does. -/
theorem settle_step {s t : State} {x : Inputs} {rest : List Inputs} (script : s.script = x :: rest)
    (run : x.rst = false) (hst : s.st = .settle) (hstep : step s = .next t) :
    (s.settleCnt = 0 ∧ t.st = .readReq) ∨ (s.settleCnt ≠ 0 ∧ t.st = .settle ∧ t.settleCnt = s.settleCnt - 1) := by
  rcases step_cases script run hstep with ⟨idle, -⟩ | ⟨-, ie, ovr, done, rdata, rvalid, -, rule⟩
  · rw [hst] at idle; cases idle
  · have settle := (sequencerEdge_settle (by exact hst)).symm.trans rule.sequencerEdge_eq
    rcases settleEdge_cases (withHostFlags (atEdge x rest s) ie ovr done rdata rvalid) with ⟨zero, e⟩ | ⟨nonzero, e⟩
    · rw [e] at settle; cases settle
      exact .inl ⟨zero, rfl⟩
    · rw [e] at settle; cases settle
      exact .inr ⟨nonzero, hst, rfl⟩

/-- From a settle count of c the block stays in SETTLE for c more edges and leaves it at the next. -/
theorem settle_lasts (c : Nat) (s : State) (hst : s.st = .settle) (count : s.settleCnt.toNat = c)
    (noReset : NoResetFor (c + 1) s) :
    (∀ n, n ≤ c → (runFor n s).st = .settle) ∧ (runFor (c + 1) s).st = .readReq := by
  induction c generalizing s with
  | zero =>
    obtain ⟨x, rest, t, script, run, hstep, -⟩ := step_of_noReset noReset
    refine ⟨fun n hn => by rw [Nat.le_zero.1 hn]; exact hst, ?_⟩
    rw [runFor_succ 0 hstep]
    rcases settle_step script run hst hstep with ⟨-, left⟩ | ⟨nonzero, -⟩
    · exact left
    · exact absurd (BitVec.eq_of_toNat_eq count) nonzero
  | succ c ih =>
    obtain ⟨x, rest, t, script, run, hstep, later⟩ := step_of_noReset noReset
    rcases settle_step script run hst hstep with ⟨zero, -⟩ | ⟨-, still, counted⟩
    · rw [zero] at count; cases count
    · obtain ⟨during, after⟩ := ih t still (by rw [counted]; bv_omega) later
      refine ⟨fun n hn => ?_, by rw [runFor_succ _ hstep]; exact after⟩
      cases n with
      | zero => exact hst
      | succ n => rw [runFor_succ n hstep]; exact during n (by omega)

/-- Settles O37: the count starts at SETTLE_CYCLES − 1, and SETTLE presents no request. -/
theorem settleLastsExactlySettleCycles : Obligations.SettleLastsExactlySettleCycles := by
  intro s legal hst count noReset
  obtain ⟨loaded, positive⟩ := settleCycles_ofNat legal
  have cycles : s.cfg.settleCycles - 1 + 1 = s.cfg.settleCycles := by omega
  obtain ⟨during, after⟩ := settle_lasts (s.cfg.settleCycles - 1) s hst (by rw [count, loaded]) (by rwa [cycles])
  refine ⟨fun n hn => ?_, by rwa [cycles] at after⟩
  have settle := during n (by omega)
  exact ⟨settle, by rw [State.outputs, settle]; rfl⟩

/-! ### The bound on a command -/

/-- The edges that the attempt in progress can still take, at most: a full timeout for each transaction to come, the
settle time if it is to come, and the DECODE edge (70_reset_and_hazards.md R251). -/
def edgesLeftInAttempt (s : State) : Nat :=
  match s.st with
  | .bindReq | .bindRsp => s.toCnt.toNat + 2 * s.timeout.toNat + s.cfg.settleCycles + 1
  | .writeReq | .writeRsp => s.toCnt.toNat + s.timeout.toNat + s.cfg.settleCycles + 1
  | .settle => s.settleCnt.toNat + 1 + s.timeout.toNat + 1
  | .readReq | .readRsp => s.toCnt.toNat + 1
  | .decode => 1
  | .idle | .unused _ => 0

/-- The edges that a whole attempt can take, at most. -/
def edgesOfAttempt (s : State) : Nat := 3 * s.timeout.toNat + s.cfg.settleCycles + 1

/-- The edges that the command can still take, at most. -/
def edgesLeft (s : State) : Nat := (s.maxRetry.toNat - s.attempt.toNat) * edgesOfAttempt s + edgesLeftInAttempt s

/-- A CYCLE command in progress with a timeout set. -/
structure Running (s : State) : Prop where
  legal : s.cfg.Legal
  timed : s.timeout ≠ 0
  cycle : s.mode = .cycle
  attempt : s.attempt ≤ s.maxRetry
  busy : s.st ≠ .idle
  used : ∀ k, s.st ≠ .unused k
  counting : s.st.isReq = true ∨ s.st.isRsp = true → s.toCnt ≠ 0

variable {p t : State}

theorem edgesLeftInAttempt_pos (running : Running p) : 0 < edgesLeftInAttempt p := by
  have busy := running.busy
  have used := running.used
  unfold edgesLeftInAttempt
  cases hst : p.st with
  | idle => exact absurd hst busy
  | unused k => exact absurd hst (used k)
  | bindReq | bindRsp | writeReq | writeRsp | settle | readReq | readRsp | decode => exact Nat.succ_pos _

/-- An error ends the command, or costs it an attempt. -/
theorem raise_edgesLeft (running : Running p) (e : ProtocolError) (cancel : Bool) :
    (raise e { p with cancelQ := cancel }).st = .idle ∨
      Running (raise e { p with cancelQ := cancel }) ∧
        edgesLeft (raise e { p with cancelQ := cancel }) < edgesLeft p := by
  have left := edgesLeftInAttempt_pos running
  rcases raise_cases e { p with cancelQ := cancel } with ⟨-, more, retry⟩ | ⟨-, finish⟩
  · rw [retry]
    right
    have more : p.attempt < p.maxRetry := more
    refine ⟨{ running with
      attempt := by show p.attempt + 1 ≤ p.maxRetry; bv_omega
      busy := nofun
      used := nofun
      counting := fun _ => running.timed }, ?_⟩
    show (p.maxRetry.toNat - (p.attempt + 1).toNat) * edgesOfAttempt p +
      (p.timeout.toNat + 2 * p.timeout.toNat + p.cfg.settleCycles + 1) < edgesLeft p
    have fewer : p.maxRetry.toNat - p.attempt.toNat = p.maxRetry.toNat - (p.attempt + 1).toNat + 1 := by bv_omega
    rw [edgesLeft, fewer, Nat.add_one_mul (p.maxRetry.toNat - (p.attempt + 1).toNat)]
    unfold edgesOfAttempt
    omega
  · rw [finish]
    exact .inl rfl

/-- A rule that stays in the attempt keeps the command running, and is an edge less. -/
theorem running_move (running : Running p) {st : St} {toCnt settleCnt : Reg32} {bound : Option Byte} {frame : Frame}
    {frameLen : Byte} (busy : st ≠ .idle) (used : ∀ k, st ≠ .unused k)
    (counting : st.isReq = true ∨ st.isRsp = true → toCnt ≠ 0)
    (less : edgesLeftInAttempt
      { p with st := st, toCnt := toCnt, settleCnt := settleCnt, bound := bound, frame := frame, frameLen := frameLen } <
      edgesLeftInAttempt p) :
    Running
        { p with st := st, toCnt := toCnt, settleCnt := settleCnt, bound := bound, frame := frame, frameLen := frameLen } ∧
      edgesLeft
        { p with st := st, toCnt := toCnt, settleCnt := settleCnt, bound := bound, frame := frame, frameLen := frameLen } <
        edgesLeft p :=
  ⟨{ running with busy, used, counting }, Nat.add_lt_add_left less _⟩

/-- A count, with or without a move within the transaction, is an edge less. -/
theorem running_countDown (running : Running p) (onBus : p.st.isReq = true ∨ p.st.isRsp = true) (notDue : p.toCnt ≠ 1)
    {st : St} (busy : st ≠ .idle) (used : ∀ k, st ≠ .unused k)
    (same : ∀ c : Reg32,
      edgesLeftInAttempt { p with st := st, toCnt := c } + p.toCnt.toNat = edgesLeftInAttempt p + c.toNat) :
    Running { countDown p with st := st } ∧ edgesLeft { countDown p with st := st } < edgesLeft p := by
  have nonzero := running.counting onBus
  have above : 1 < p.toCnt := by bv_omega
  have counted : (if 1 < p.toCnt then p.toCnt - 1 else p.toCnt) = p.toCnt - 1 := if_pos above
  have := same (p.toCnt - 1)
  rw [countDown_eq, counted]
  exact running_move running busy used (fun _ => by bv_omega) (by
    show edgesLeftInAttempt { p with st := st, toCnt := p.toCnt - 1 } < edgesLeftInAttempt p
    bv_omega)

/-- Every rule takes a running command an edge nearer its end. -/
theorem seqRule_running (running : Running p) (rule : SeqRule p t) :
    t.st = .idle ∨ Running t ∧ edgesLeft t < edgesLeft p := by
  cases rule with
  | stuck k hst => exact absurd hst (running.used k)
  | timeout => exact raise_edgesLeft running ..
  | errorResponse | decodeError => exact raise_edgesLeft running _ p.cancelQ
  | decoded => exact .inl rfl
  | waitRequest req notReady notDue =>
    have := running_countDown running (.inl req) notDue running.busy running.used fun c => by
      cases hst : p.st <;> simp_all [edgesLeftInAttempt, St.isReq] <;> omega
    rw [countDown_eq] at this ⊢
    exact .inr this
  | waitResponse rsp silent notDue =>
    have := running_countDown running (.inr rsp) notDue running.busy running.used fun c => by
      cases hst : p.st <;> simp_all [edgesLeftInAttempt, St.isRsp] <;> omega
    rw [countDown_eq] at this ⊢
    exact .inr this
  | acceptBind hst ready notDue | acceptWrite hst ready notDue | acceptRead hst ready notDue =>
    exact .inr (running_countDown running (.inl (by rw [hst]; rfl)) notDue nofun nofun fun c => by
      simp only [edgesLeftInAttempt, hst]; omega)
  | bindDone hst valid noErr =>
    have := running.counting (.inr (by rw [hst]; rfl))
    exact .inr (running_move running nofun nofun (fun _ => running.timed) (by
      simp only [edgesLeftInAttempt, hst]; bv_omega))
  | writeDone hst valid noErr =>
    have := running.counting (.inr (by rw [hst]; rfl))
    obtain ⟨loaded, positive⟩ := settleCycles_ofNat running.legal
    exact .inr (running_move running nofun nofun (fun onBus => absurd onBus (not_onBus (.inr (.inl rfl)))) (by
      simp only [edgesLeftInAttempt, hst, loaded]; bv_omega))
  | readDone hst valid noErr =>
    have := running.counting (.inr (by rw [hst]; rfl))
    exact .inr (running_move running nofun nofun (fun onBus => absurd onBus (not_onBus (.inr (.inr rfl)))) (by
      simp only [edgesLeftInAttempt, hst]; bv_omega))
  | settled hst zero =>
    exact .inr (running_move running nofun nofun (fun _ => running.timed) (by
      simp only [edgesLeftInAttempt, hst]; omega))
  | settling hst nonzero =>
    exact .inr (running_move running running.busy running.used running.counting (by
      simp only [edgesLeftInAttempt, hst]; bv_omega))

/-- A running command finishes, with DONE set, within the edges it has left. -/
theorem running_finishes (n : Nat) (s : State) (running : Running s) (enough : edgesLeft s ≤ n)
    (noReset : NoResetFor n s) : ∃ k, k ≤ n ∧ (runFor k s).st = .idle ∧ (runFor k s).done = true := by
  induction n generalizing s with
  | zero =>
    have := edgesLeftInAttempt_pos running
    rw [edgesLeft] at enough
    omega
  | succ n ih =>
    obtain ⟨x, rest, t, script, run, hstep, later⟩ := step_of_noReset noReset
    rcases step_cases script run hstep with ⟨idle, -⟩ | ⟨busy, ie, ovr, done, rdata, rvalid, -, rule⟩
    · exact absurd idle running.busy
    · have running' : Running (withHostFlags (atEdge x rest s) ie ovr done rdata rvalid) := { running with }
      rcases seqRule_running running' rule with idle | ⟨still, less⟩
      · exact ⟨1, Nat.succ_le_succ n.zero_le, by rw [runFor_succ 0 hstep]; exact ⟨idle, (rule.finish busy idle).1⟩⟩
      · have less : edgesLeft t < edgesLeft s := less
        obtain ⟨k, hk, finished⟩ := ih t still (by omega) later
        exact ⟨k + 1, Nat.succ_le_succ hk, by rw [runFor_succ k hstep]; exact finished⟩

/-- Settles O48: the START edge leaves a running command with `bound` edges left. -/
theorem startFinishesWithinTheBound : Obligations.StartFinishesWithinTheBound := by
  rintro s x rest _ legal idle timed script run write index command rfl long noReset
  obtain ⟨t, hstep⟩ := everyStepAnswersNext s
  have next := step_script script run hstep
  have started : Running t ∧ edgesLeft t =
      ((x.hWdata.extractLsb' 8 4 : BitVec 4).toNat + 1) * (3 * s.timeout.toNat + s.cfg.settleCycles + 1) := by
    rcases step_cases script run hstep with ⟨-, rule⟩ | ⟨busy, -⟩
    · cases rule with
      | start =>
        refine ⟨⟨legal, timed, rfl, Nat.zero_le _, nofun, nofun, fun _ => timed⟩, ?_⟩
        show ((if s.st = .idle then ctrlMaxRetry x.hWdata else s.maxRetry).toNat - 0) *
            (3 * s.timeout.toNat + s.cfg.settleCycles + 1) +
          (s.timeout.toNat + 2 * s.timeout.toNat + s.cfg.settleCycles + 1) = _
        rw [if_pos idle, ctrlMaxRetry, Nat.sub_zero]
        ring
      | decode _ _ noStart => cases noStart.symm.trans command
      | registers _ _ _ _ _ _ _ _ _ _ noCommand => exact absurd ⟨write, index, .inl command⟩ noCommand
    · exact absurd idle busy
  obtain ⟨k, hk, finished⟩ := running_finishes _ t started.1 started.2.le ⟨by rwa [next], by rwa [next]⟩
  exact ⟨k, hk, by rw [runFor_succ k hstep]; exact finished⟩

end Sys2Proof.Machine
end

section
/-! What the decoder does not read with CRC_EN = 0 (41_decoder.md R159, R160), and the checksum as a remainder of
polynomials over GF(2) (R155). -/

namespace Sys2Proof.Machine

open Sys2Proof Sys2Proof.Safety Polynomial

/-- Settles O54: without the checksum the decoder reads the status bit and the two raw fields alone. -/
theorem ignoredFrameBitsDoNotMatter : Obligations.IgnoredFrameBitsDoNotMatter := by
  intro p f g len busy h1 h2 h3 h4 h5
  have hum : rawHumidity f = rawHumidity g := rawHumidity_eq_iff.2 ⟨h1, h2, by rw [h3]⟩
  have temp : rawTemperature f = rawTemperature g := rawTemperature_eq_iff.2 ⟨by rw [h3], h4, h5⟩
  simp only [decodeFrame, busy, hum, temp, Bool.false_eq_true, false_and, if_false]

/-! ### The checksum -/

/-- A polynomial determines its byte: its coefficients are the bits. -/
theorem bytePoly_injective {a b : Byte} (h : bytePoly a = bytePoly b) : a = b := by
  apply BitVec.eq_of_getLsbD_eq
  intro k _
  have coeff := congrArg (fun p => p.coeff k) h
  simp only [bytePoly_coeff] at coeff
  cases ha : a.getLsbD k <;> cases hb : b.getLsbD k <;> simp_all

/-- One byte of the checksum multiplies by x^8, the byte added, modulo the generator. -/
theorem bytePoly_crcByte (poly c b : Byte) :
    ∃ q, bytePoly (crcByte poly c b) = (bytePoly c + bytePoly b) * X ^ 8 + generatorPoly poly * q := by
  rw [← bytePoly_xor]
  exact bytePoly_crcShifts poly 8 (c ^^^ b)

/-- The checksum, read as a polynomial, is the remainder of the message times x^8 with the initial value above it. -/
theorem bytePoly_crc8 (poly init : Byte) (bs : List Byte) :
    bytePoly (crc8 poly init bs) =
      (messagePoly bs * X ^ 8 + bytePoly init * X ^ (8 * bs.length)) %ₘ generatorPoly poly := by
  induction bs generalizing init with
  | nil =>
    have small : (bytePoly init).degree < (generatorPoly poly).degree := by
      rw [generatorPoly_degree]; exact bytePoly_degree_lt init
    rw [messagePoly, zero_mul, zero_add, List.length_nil, Nat.mul_zero, pow_zero, mul_one,
      (modByMonic_eq_self_iff (generatorPoly_monic poly)).2 small]
    rfl
  | cons b bs ih =>
    obtain ⟨q, byte⟩ := bytePoly_crcByte poly init b
    rw [crc8, List.foldl_cons, ← crc8, ih, byte, messagePoly, List.length_cons]
    refine modByMonic_eq_of_dvd_sub (generatorPoly_monic poly) ⟨q * X ^ (8 * bs.length), ?_⟩
    ring

/-- Equal lengths: the message of the XORs is the sum of the messages. -/
theorem messagePoly_zipWith_xor (as bs : List Byte) (h : as.length = bs.length) :
    messagePoly (List.zipWith (· ^^^ ·) as bs) = messagePoly as + messagePoly bs := by
  induction as generalizing bs with
  | nil =>
    rw [List.length_nil] at h
    rw [List.eq_nil_of_length_eq_zero h.symm]
    exact (add_zero _).symm
  | cons a as ih =>
    cases bs with
    | nil => cases h
    | cons b bs =>
      have h : as.length = bs.length := Nat.succ.inj h
      rw [List.zipWith_cons_cons, messagePoly, messagePoly, messagePoly, bytePoly_xor, ih bs h, List.length_zipWith, ← h,
        Nat.min_self]
      ring

theorem bytePoly_zero : bytePoly 0 = 0 := by
  ext k
  rw [bytePoly_coeff]
  simp

/-- The two initial values cancel: over GF(2) every polynomial is its own negative. -/
theorem crc8_xor (poly init : Byte) (as bs : List Byte) (h : as.length = bs.length) :
    crc8 poly init as ^^^ crc8 poly init bs = crc8 poly 0 (List.zipWith (· ^^^ ·) as bs) := by
  apply bytePoly_injective
  rw [bytePoly_xor, bytePoly_crc8, bytePoly_crc8, bytePoly_crc8, ← add_modByMonic, messagePoly_zipWith_xor as bs h,
    bytePoly_zero, zero_mul, add_zero, ← h]
  congr 1
  linear_combination poly_add_self (bytePoly init * X ^ (8 * as.length))

/-- Settles O55: the remainder, the uniqueness of the byte, and the affinity. -/
theorem checksumIsTheCrcRemainderAndAffine : Obligations.ChecksumIsTheCrcRemainderAndAffine :=
  ⟨bytePoly_crc8, fun _ _ => bytePoly_injective, crc8_xor⟩

end Sys2Proof.Machine
end

section
/-! Every conversion is the nearest binary32 value, ties to even (42_conversion.md R181 to R184). In units of 2^-20, the
binary32 values from 2^L on are multiples of the unit in the last place 2^(L-23), and the rounding picks the nearest
multiple. -/

namespace Sys2Proof.Machine

open Sys2Proof Sys2Proof.Safety

/-! ### The binary32 values as multiples of a unit -/

/-- In units of 2^-20 a binary32 value is a significand below 2^24 times a power of two, with a sign. -/
theorem f32Value_eq_significand_mul (c : Reg32) :
    ∃ (sign : ℤ) (sig : ℕ) (e : ℤ), |sign| = 1 ∧ sig < 2 ^ 24 ∧ f32Value c * 2 ^ 20 = sign * (sig * 2 ^ e) := by
  have fraction : (c.extractLsb' 0 23 : BitVec 23).toNat < 2 ^ 23 := (c.extractLsb' 0 23 : BitVec 23).isLt
  have scale : ∀ e : ℤ, (2 : ℚ) ^ e * 2 ^ 20 = 2 ^ (e + 20) := fun e => (zpow_add₀ two_ne_zero e 20).symm
  have sign : |(if c.getLsbD 31 then -1 else 1 : ℤ)| = 1 := by split <;> rfl
  rw [f32Value]
  by_cases subnormal : (c.extractLsb' 23 8 : BitVec 8).toNat = 0
  · refine ⟨_, (c.extractLsb' 0 23 : BitVec 23).toNat, -149 + 20, sign, by omega, ?_⟩
    simp only [if_pos subnormal]
    rw [mul_assoc, mul_assoc, scale]
    push_cast
    rfl
  · refine ⟨_, 2 ^ 23 + (c.extractLsb' 0 23 : BitVec 23).toNat, (c.extractLsb' 23 8 : BitVec 8).toNat - 150 + 20, sign,
      by omega, ?_⟩
    simp only [if_neg subnormal]
    rw [mul_assoc, mul_assoc, scale]
    push_cast
    rfl

/-- In units of 2^-20 a binary32 value lies below 2^L or is a multiple of the unit that values from 2^L on have. -/
theorem f32Value_grid (c : Reg32) {L : Nat} (hL : 23 ≤ L) :
    |f32Value c * 2 ^ 20| < 2 ^ L ∨ ∃ k : ℤ, f32Value c * 2 ^ 20 = k * 2 ^ (L - 23) := by
  obtain ⟨sign, sig, e, hsign, hsig, value⟩ := f32Value_eq_significand_mul c
  rw [value]
  rcases lt_or_ge e ((L - 23 : Nat) : ℤ) with low | high
  · left
    have hsign : |(sign : ℚ)| = 1 := by exact_mod_cast hsign
    have hsig : (sig : ℚ) < 2 ^ (24 : ℤ) := by exact_mod_cast hsig
    rw [abs_mul, hsign, one_mul, abs_of_nonneg (by positivity)]
    calc (sig : ℚ) * 2 ^ e < 2 ^ (24 : ℤ) * 2 ^ e := mul_lt_mul_of_pos_right hsig (by positivity)
      _ = 2 ^ (24 + e) := (zpow_add₀ two_ne_zero ..).symm
      _ ≤ 2 ^ (L : ℤ) := zpow_le_zpow_right₀ one_le_two (by omega)
      _ = 2 ^ L := zpow_natCast ..
  · right
    obtain ⟨d, rfl⟩ := Int.le.dest high
    refine ⟨sign * (sig * 2 ^ d), ?_⟩
    rw [zpow_add₀ two_ne_zero, zpow_natCast, zpow_natCast]
    push_cast
    ring

/-! ### The nearest multiple -/

section
variable {n : Nat}

/-- A rounded magnitude is a multiple of the unit. -/
theorem rne24_dvd (hn : 2 ^ 23 ≤ n) : ∃ q : ℤ, (rne24 n : ℤ) = q * 2 ^ (n.log2 - 23) := by
  obtain ⟨q, -, -, hq⟩ := rne24_eq_significand_mul hn
  exact ⟨q, by rw [hq]; push_cast; rfl⟩

/-- No multiple of the unit is nearer to n than the rounded magnitude, and another one that is as near is half a unit
off. -/
theorem rne24_nearest (hn : 2 ^ 23 ≤ n) (k : ℤ) :
    |(rne24 n : ℤ) - n| ≤ |k * 2 ^ (n.log2 - 23) - n| ∧
      (k * 2 ^ (n.log2 - 23) ≠ rne24 n → |k * 2 ^ (n.log2 - 23) - n| = |(rne24 n : ℤ) - n| →
        2 * |(rne24 n : ℤ) - n| = 2 ^ (n.log2 - 23)) := by
  obtain ⟨q, hq⟩ := rne24_dvd hn
  obtain ⟨above, below⟩ := rne24_error n
  have unit : 0 < 2 ^ (n.log2 - 23) := Nat.two_pow_pos _
  have cast : ((2 ^ (n.log2 - 23) : ℕ) : ℤ) = 2 ^ (n.log2 - 23) := by push_cast; rfl
  rw [← cast] at hq ⊢
  generalize 2 ^ (n.log2 - 23) = u at *
  have half : 2 * |(rne24 n : ℤ) - n| ≤ u := by rcases abs_cases ((rne24 n : ℤ) - n) with h | h <;> omega
  rcases eq_or_ne k q with rfl | other
  · rw [hq]
    exact ⟨le_rfl, fun h => absurd rfl h⟩
  · have apart : (u : ℤ) ≤ |k * u - rne24 n| := by
      rw [hq, ← sub_mul, abs_mul, Nat.abs_cast]
      exact le_mul_of_one_le_left (by omega) (Int.one_le_abs (sub_ne_zero.2 other))
    have triangle := abs_sub_le (k * u : ℤ) n (rne24 n)
    rw [abs_sub_comm (n : ℤ)] at triangle
    exact ⟨by omega, fun _ same => by omega⟩

/-- The power of two below n is a multiple of the unit as well, so the rounded magnitude is at least as near. -/
theorem rne24_near_two_pow (hn : 2 ^ 24 ≤ n) : |(rne24 n : ℤ) - n| ≤ n - 2 ^ n.log2 := by
  have hlog : 24 ≤ n.log2 := (Nat.le_log2 (by omega)).2 hn
  have power : (2 : ℤ) ^ 23 * 2 ^ (n.log2 - 23) = 2 ^ n.log2 := by rw [← pow_add]; congr 1; omega
  have below : (2 : ℤ) ^ n.log2 ≤ n := by exact_mod_cast Nat.log2_self_le (by omega)
  have nearest := (rne24_nearest (n := n) (by omega) (2 ^ 23)).1
  rwa [power, abs_sub_comm (2 ^ n.log2), abs_of_nonneg (sub_nonneg.2 below)] at nearest

theorem two_pow_le_rne24 (hn : 2 ^ 24 ≤ n) : 2 ^ 24 ≤ rne24 n := by
  have hlog : 24 ≤ n.log2 := (Nat.le_log2 (by omega)).2 hn
  have power : 2 ^ 24 ≤ 2 ^ n.log2 := Nat.pow_le_pow_right (by omega) hlog
  have near := abs_le.1 (rne24_near_two_pow hn)
  zify at power ⊢
  omega

/-- Half a unit off, the rounded magnitude is an even multiple of the unit. -/
theorem rne24_even_of_tie (tie : 2 * |(rne24 n : ℤ) - n| = 2 ^ (n.log2 - 23)) :
    ∃ q, rne24 n = 2 * q * 2 ^ (n.log2 - 23) := by
  have cast : ((2 ^ (n.log2 - 23) : ℕ) : ℤ) = 2 ^ (n.log2 - 23) := by push_cast; rfl
  rw [← cast] at tie
  have unit : 0 < 2 ^ (n.log2 - 23) := Nat.two_pow_pos _
  have tie : 2 * rne24 n = 2 * n + 2 ^ (n.log2 - 23) ∨ 2 * n = 2 * rne24 n + 2 ^ (n.log2 - 23) := by
    rcases abs_cases ((rne24 n : ℤ) - n) with h | h <;> omega
  unfold rne24 at tie ⊢
  generalize 2 ^ (n.log2 - 23) = u at *
  have division := Nat.div_add_mod n u
  have remainder := Nat.mod_lt n unit
  simp only at tie ⊢
  generalize n / u = q at *
  generalize n % u = r at *
  split at tie
  next up =>
    rw [if_pos up]
    have product : (q + 1) * u = u * q + u := by ring
    obtain ⟨j, hj⟩ : ∃ j, q + 1 = 2 * j := ⟨(q + 1) / 2, by omega⟩
    exact ⟨j, by rw [hj]⟩
  next down =>
    rw [if_neg down]
    have product : q * u = u * q := mul_comm ..
    obtain ⟨j, hj⟩ : ∃ j, q = 2 * j := ⟨q / 2, by omega⟩
    exact ⟨j, by rw [hj]⟩

/-- Half a unit off, the rounded magnitude has at most 23 significant bits. -/
theorem two_pow_dvd_rne24_of_tie (hn : 2 ^ 24 ≤ n) (tie : 2 * |(rne24 n : ℤ) - n| = 2 ^ (n.log2 - 23)) :
    2 ^ ((rne24 n).log2 - 22) ∣ rne24 n := by
  have hlog : 24 ≤ n.log2 := (Nat.le_log2 (by omega)).2 hn
  obtain ⟨q', positive, hq', significand⟩ := rne24_eq_significand_mul (n := n) (by omega)
  obtain ⟨q, even⟩ := rne24_even_of_tie tie
  rcases hq'.lt_or_eq with small | rfl
  · have hlog' : (rne24 n).log2 < 24 + (n.log2 - 23) := by
      rw [significand, Nat.log2_lt (Nat.mul_pos (by omega) (Nat.two_pow_pos _)).ne', pow_add]
      exact Nat.mul_lt_mul_of_pos_right small (Nat.two_pow_pos _)
    refine (pow_dvd_pow 2 (show (rne24 n).log2 - 22 ≤ n.log2 - 23 + 1 by omega)).trans ⟨q, ?_⟩
    rw [even]
    ring
  · rw [significand, ← pow_add, Nat.log2_two_pow]
    exact pow_dvd_pow 2 (by omega)

end

/-- The last fraction bit of an even significand is 0. -/
theorem packF32_getLsbD_zero (neg : Bool) {n k : Nat} (hn : 2 ^ 24 ≤ n) (even : 2 ^ (n.log2 - 22) ∣ n) :
    (packF32 neg n k).getLsbD 0 = false := by
  have hlog : 24 ≤ n.log2 := (Nat.le_log2 (by omega)).2 hn
  obtain ⟨q, hq⟩ := even
  have significand : n / 2 ^ (n.log2 - 23) = 2 * q := by
    refine Nat.div_eq_of_eq_mul_right (Nat.two_pow_pos _) ?_
    conv_lhs => rw [hq]
    rw [show n.log2 - 22 = n.log2 - 23 + 1 by omega]
    ring
  rw [packF32, if_neg (by omega)]
  simp only
  rw [if_neg (by omega), significand]
  have parity : (2 * q - 2 ^ 23).testBit 0 = false := by
    rw [Nat.testBit_zero, decide_eq_false_iff_not]
    omega
  rw [BitVec.getLsbD_append, if_pos (by decide), BitVec.getLsbD_ofNat, parity, Bool.and_false]

/-! ### The nearest binary32 value -/

/-- From 2^24 units on the rounded magnitude is the nearest of all numbers that binary32 has, and another one that is as
near is half a unit off. -/
theorem rne24_nearest_value {n : Nat} (hn : 2 ^ 24 ≤ n) {w : ℚ}
    (grid : |w| < 2 ^ n.log2 ∨ ∃ k : ℤ, w = k * 2 ^ (n.log2 - 23)) :
    |(rne24 n : ℚ) - n| ≤ |w - n| ∧
      (w ≠ rne24 n → |w - n| = |(rne24 n : ℚ) - n| → 2 * |(rne24 n : ℤ) - n| = 2 ^ (n.log2 - 23)) := by
  rcases grid with below | ⟨k, rfl⟩
  · have power : |(rne24 n : ℚ) - n| ≤ n - 2 ^ n.log2 := by exact_mod_cast rne24_near_two_pow hn
    have := abs_lt.1 below
    have : |(rne24 n : ℚ) - n| < |w - n| := by
      rw [abs_sub_comm w]
      exact power.trans_lt ((by linarith : (n : ℚ) - 2 ^ n.log2 < n - w).trans_le (le_abs_self _))
    exact ⟨this.le, fun _ same => absurd same this.ne'⟩
  · have nearest := rne24_nearest (n := n) (by omega) k
    exact_mod_cast nearest

/-- The same of the signed number of units. -/
theorem roundUnits_nearest_value {m : ℤ} (hm : 2 ^ 24 ≤ m.natAbs) {w : ℚ}
    (grid : |w| < 2 ^ m.natAbs.log2 ∨ ∃ k : ℤ, w = k * 2 ^ (m.natAbs.log2 - 23)) :
    |(roundUnits m : ℚ) - m| ≤ |w - m| ∧
      (w ≠ roundUnits m → |w - m| = |(roundUnits m : ℚ) - m| →
        2 * |(rne24 m.natAbs : ℤ) - m.natAbs| = 2 ^ (m.natAbs.log2 - 23)) := by
  rcases lt_or_ge m 0 with negative | nonneg
  · have mirrored : |-w| < 2 ^ m.natAbs.log2 ∨ ∃ k : ℤ, -w = k * 2 ^ (m.natAbs.log2 - 23) := by
      rw [abs_neg]
      exact grid.imp_right fun ⟨k, hk⟩ => ⟨-k, by rw [hk]; push_cast; ring⟩
    have distance : ∀ x y : ℚ, |-x - y| = |x - -y| := fun x y => by rw [← abs_neg]; congr 1; ring
    have magnitude : (m : ℚ) = -m.natAbs := by
      rw [← Int.cast_natCast, Int.ofNat_natAbs_of_nonpos negative.le, Int.cast_neg, neg_neg]
    have rounded : (roundUnits m : ℚ) = -rne24 m.natAbs := by rw [roundUnits, if_pos negative]; push_cast; rfl
    obtain ⟨nearest, tie⟩ := rne24_nearest_value hm mirrored
    have flip := distance (-(rne24 m.natAbs : ℚ)) m.natAbs
    rw [neg_neg] at flip
    rw [rounded, magnitude, ← flip, ← distance]
    exact ⟨nearest, fun other => tie fun same => other (by rw [← same, neg_neg])⟩
  · have magnitude : (m : ℚ) = m.natAbs := by rw [← Int.cast_natCast, Int.natAbs_of_nonneg nonneg]
    have rounded : (roundUnits m : ℚ) = rne24 m.natAbs := by rw [roundUnits, if_neg (by omega)]; rfl
    rw [rounded, magnitude]
    exact rne24_nearest_value hm grid

/-- Up to 24 bits there is nothing to round. -/
theorem roundUnits_of_lt {m : ℤ} (hm : m.natAbs < 2 ^ 24) : roundUnits m = m := by
  rw [roundUnits, rne24_of_lt hm]
  split <;> omega

/-- The distance of two values in units of 2^-20. -/
theorem abs_f32Value_sub (c : Reg32) (m : ℤ) :
    |f32Value c - (m : ℚ) / 2 ^ 20| = |f32Value c * 2 ^ 20 - m| / 2 ^ 20 := by
  rw [← abs_of_pos (by positivity : (0 : ℚ) < 2 ^ 20), ← abs_div]
  congr 1
  simp only [abs_of_pos (by positivity : (0 : ℚ) < 2 ^ 20)]
  field_simp

/-- rne32 gives the nearest binary32 value, ties to even, for every number of units in reach of the conversions. -/
theorem isRne32_rne32 {m : ℤ} (hm : m.natAbs < 2 ^ 28) : IsRne32 ((m : ℚ) / 2 ^ 20) (rne32 m 20) := by
  have value : f32Value (rne32 m 20) * 2 ^ 20 = roundUnits m := by rw [f32Value_rne32 hm]; field_simp
  have finite : f32Finite (rne32 m 20) = true := by
    rcases eq_or_ne m 0 with rfl | nonzero
    · decide +kernel
    · exact ((Bool.and_eq_true_iff ..).1 (f32Normal_rne32 nonzero hm)).1
  have zero : (m : ℚ) / 2 ^ 20 = 0 → rne32 m 20 = 0 := by
    intro h
    obtain rfl : m = 0 := by simpa using h
    decide +kernel
  have scale : (0 : ℚ) < 2 ^ 20 := by positivity
  have nearest : ∀ c, |f32Value (rne32 m 20) - (m : ℚ) / 2 ^ 20| ≤ |f32Value c - (m : ℚ) / 2 ^ 20| ∧
      (f32Value c ≠ f32Value (rne32 m 20) →
        |f32Value c - (m : ℚ) / 2 ^ 20| = |f32Value (rne32 m 20) - (m : ℚ) / 2 ^ 20| →
          (rne32 m 20).getLsbD 0 = false) := by
    intro c
    rw [abs_f32Value_sub, abs_f32Value_sub, value, div_le_div_iff_of_pos_right scale, div_left_inj' scale.ne',
      ← (mul_left_injective₀ scale.ne').ne_iff, value]
    rcases lt_or_ge m.natAbs (2 ^ 24) with small | large
    · rw [roundUnits_of_lt small, sub_self, abs_zero]
      exact ⟨abs_nonneg _, fun other same => absurd (sub_eq_zero.1 (abs_eq_zero.1 same)) other⟩
    · obtain ⟨least, tie⟩ := roundUnits_nearest_value large
        (f32Value_grid c (L := m.natAbs.log2) ((Nat.le_log2 (by omega)).2 (by omega)))
      refine ⟨least, fun other same => ?_⟩
      exact packF32_getLsbD_zero _ (two_pow_le_rne24 large) (two_pow_dvd_rne24_of_tie large (tie other same))
  exact ⟨finite, fun c _ => (nearest c).1, fun c _ => (nearest c).2, zero⟩

/-- Settles O56: hum32 is rne32 of raw × 100 units of 2^-20. -/
theorem humidityIsTheNearestBinary32 : Obligations.HumidityIsTheNearestBinary32 := by
  intro raw
  have := raw.isLt
  have nearest := isRne32_rne32 (m := (raw.toNat * 100 : Nat)) (by omega)
  rw [hum32]
  convert nearest using 1
  push_cast
  rfl

/-- Settles O57: the last rounding of each evaluation, and of STEPWISE_F32 the first as well. -/
theorem temperatureRoundsOnceOrTwice : Obligations.TemperatureRoundsOnceOrTwice := by
  intro raw
  have hraw := raw.isLt
  refine ⟨?_, rne32 (raw.toNat * 200 : Nat) 20, ?_, ?_⟩
  · have nearest := isRne32_rne32 (tempUnits_natAbs_lt .exactThenF32 raw)
    rw [temp32_eq_rne32]
    convert nearest using 1
    simp only [tempUnits]
    push_cast
    ring
  · have nearest := isRne32_rne32 (m := (raw.toNat * 200 : Nat)) (by omega)
    convert nearest using 1
    push_cast
    ring
  · have nearest := isRne32_rne32 (tempUnits_natAbs_lt .stepwiseF32 raw)
    rw [temp32_eq_rne32]
    convert nearest using 1
    rw [f32Value_rne32 (by omega)]
    simp only [tempUnits, roundUnits, Int.natAbs_natCast]
    rw [if_neg (by omega)]
    push_cast
    ring

end Sys2Proof.Machine
end

section
/-! Where the two evaluations of the temperature differ (42_conversion.md R185). The product 200 × raw_t is a multiple
of 8, so its rounding moves it, and then by 8 up or down from a tie, only from 2^27 on. The difference with 50 × 2^20 is
then above 2^26: below 2^27 it is exact in both evaluations and 8 is one unit in the last place; from 2^27 on the
exact difference is the same tie, so both evaluations end at the same even multiple of 16. -/

namespace Sys2Proof.Machine

open Sys2Proof

/-! ### Roundings by the size of the magnitude -/

section
variable {n : Nat}

theorem rne24_of_dvd (exact : 2 ^ (n.log2 - 23) ∣ n) : rne24 n = n := by
  have remainder := Nat.mod_eq_zero_of_dvd exact
  have unit : 0 < 2 ^ (n.log2 - 23) := Nat.two_pow_pos _
  unfold rne24
  simp only
  rw [if_neg (by omega), Nat.div_mul_cancel exact]

/-- Multiples of 2^e below 2^(e+24) have at most 24 significant bits. -/
theorem rne24_of_dvd_of_lt {e : Nat} (multiple : 2 ^ e ∣ n) (hn : n < 2 ^ (e + 24)) : rne24 n = n := by
  rcases eq_or_ne n 0 with rfl | nonzero
  · rfl
  · have := (Nat.log2_lt nonzero).2 hn
    exact rne24_of_dvd ((pow_dvd_pow 2 (by omega)).trans multiple)

/-- The even multiple of 16 next to an odd multiple of 8. -/
def evenNeighbour (n : Nat) : Nat := if n % 32 = 8 then n - 8 else n + 8

/-- From 2^27 to 2^28 the unit is 16, and a remainder of 8 is a tie: it goes to the even multiple. -/
theorem rne24_of_tie (low : 2 ^ 27 ≤ n) (high : n < 2 ^ 28) (tie : n % 16 = 8) : rne24 n = evenNeighbour n := by
  have hlog : n.log2 = 27 := (Nat.log2_eq_iff (by omega)).2 ⟨low, high⟩
  unfold rne24 evenNeighbour
  simp only [hlog, Nat.reduceSub, Nat.reducePow]
  split <;> split <;> omega

/-- The even multiple of 16 has at most 24 significant bits. -/
theorem rne24_evenNeighbour (low : 2 ^ 27 ≤ n) (high : n < 2 ^ 28 - 8) (tie : n % 16 = 8) :
    rne24 (evenNeighbour n) = evenNeighbour n := by
  unfold evenNeighbour
  split <;> exact rne24_of_dvd_of_lt (e := 4) (by omega) (by omega)

/-- 50 × 2^20 is an even multiple of 16. -/
theorem evenNeighbour_add (low : 8 ≤ n) : evenNeighbour (n + 50 * 2 ^ 20) = evenNeighbour n + 50 * 2 ^ 20 := by
  unfold evenNeighbour
  split <;> split <;> omega

end

/-! ### Neighbouring patterns -/

/-- From 2^26 to 2^27 the unit is 8: the patterns of consecutive multiples of 8 are consecutive. -/
theorem packF32_rne24_of_mul_eight {q : Nat} (low : 2 ^ 23 ≤ q) (high : q ≤ 2 ^ 24) :
    packF32 false (rne24 (8 * q)) 20 = BitVec.ofNat 32 (132 * 2 ^ 23 + q) := by
  rcases high.eq_or_lt with rfl | high
  · decide +kernel
  · have hlog : (8 * q).log2 = 26 := (Nat.log2_eq_iff (by omega)).2 ⟨by omega, by omega⟩
    have exact : rne24 (8 * q) = 8 * q := rne24_of_dvd_of_lt (e := 3) (by omega) (by omega)
    rw [exact, packF32, if_neg (by omega)]
    simp only [hlog, Nat.reduceSub, Nat.reducePow, Nat.reduceLeDiff, if_false]
    have significand : 8 * q / 8 - 8388608 < 2 ^ 23 := by omega
    apply BitVec.eq_of_toNat_eq
    rw [BitVec.toNat_append, BitVec.toNat_append, BitVec.toNat_ofNat _ 23, Nat.mod_eq_of_lt significand,
      ← Nat.shiftLeft_add_eq_or_of_lt significand]
    simp only [BitVec.toNat_ofBool, BitVec.toNat_ofNat, Bool.toNat_false, Nat.reduceAdd, Nat.reduceSub, Nat.reduceMod,
      Nat.zero_shiftLeft, Nat.zero_or, Nat.reduceShiftLeft, Nat.reducePow, Nat.reduceMul]
    omega

theorem packF32_rne24_succ {q : Nat} (low : 2 ^ 23 ≤ q) (high : q < 2 ^ 24) :
    packF32 false (rne24 (8 * (q + 1))) 20 = packF32 false (rne24 (8 * q)) 20 + 1 := by
  rw [packF32_rne24_of_mul_eight (by omega) (by omega), packF32_rne24_of_mul_eight low (by omega), ← Nat.add_assoc,
    BitVec.ofNat_add]
  rfl

/-- Below 2^27 both an odd multiple of 8 and the even one next to it are exact, and one pattern apart. -/
theorem packF32_evenNeighbour {m : Nat} (low : 2 ^ 26 < m) (high : m < 2 ^ 27) (odd : m % 16 = 8) :
    packF32 false (rne24 m) 20 = packF32 false (rne24 (evenNeighbour m)) 20 + 1 ∨
      packF32 false (rne24 (evenNeighbour m)) 20 = packF32 false (rne24 m) 20 + 1 := by
  obtain ⟨q, rfl⟩ : ∃ q, m = 8 * (q + 1) := ⟨m / 8 - 1, by omega⟩
  unfold evenNeighbour
  split
  · left
    exact packF32_rne24_succ (by omega) (by omega)
  · right
    exact packF32_rne24_succ (by omega) (by omega)

/-! ### The two evaluations -/

/-- rne32 of a non-negative number of units sees the rounded magnitude only. -/
theorem rne32_natCast (m : Nat) : rne32 m 20 = packF32 false (rne24 m) 20 := by
  rw [rne32, Int.natAbs_natCast, decide_eq_false (by omega)]

/-- Where the evaluations differ, the first rounding has moved the product: it is a tie between multiples of 16. -/
theorem product_tie_of_differ {raw : BitVec 20} (differ : temp32 .stepwiseF32 raw ≠ temp32 .exactThenF32 raw) :
    2 ^ 27 ≤ raw.toNat * 200 ∧ raw.toNat * 200 % 16 = 8 := by
  have moved : rne24 (raw.toNat * 200) ≠ raw.toNat * 200 := fun same => by
    rw [temp32_eq_rne32, temp32_eq_rne32, tempUnits, tempUnits, same] at differ
    exact differ rfl
  have hraw := raw.isLt
  constructor
  · by_contra small
    exact moved (rne24_of_dvd_of_lt (e := 3) (by omega) (by omega))
  · by_contra even
    exact moved (rne24_of_dvd_of_lt (e := 4) (by omega) (by omega))

/-- For a positive temperature of m units EXACT_THEN_F32 rounds m. -/
theorem temp32_exactThenF32 {raw : BitVec 20} {m : Nat} (hm : raw.toNat * 200 = m + 50 * 2 ^ 20) :
    temp32 .exactThenF32 raw = packF32 false (rne24 m) 20 := by
  rw [temp32_eq_rne32, tempUnits, hm, ← rne32_natCast]
  push_cast
  rw [add_sub_cancel_right]

/-- STEPWISE_F32, at a tie of the product, rounds the even neighbour of m. -/
theorem temp32_stepwiseF32_of_tie {raw : BitVec 20} {m : Nat} (hm : raw.toNat * 200 = m + 50 * 2 ^ 20)
    (low : 2 ^ 27 ≤ m + 50 * 2 ^ 20) (tie : m % 16 = 8) :
    temp32 .stepwiseF32 raw = packF32 false (rne24 (evenNeighbour m)) 20 := by
  have hraw := raw.isLt
  rw [temp32_eq_rne32, tempUnits, hm, rne24_of_tie low (by omega) (by omega), evenNeighbour_add (by omega),
    ← rne32_natCast]
  push_cast
  rw [add_sub_cancel_right]

/-- Settles O60: where the evaluations differ, the exact difference m is an odd multiple of 8 and STEPWISE_F32 rounds
its even neighbour instead. From m = 2^27 on that is what m itself is rounded to; below it is the next pattern. -/
theorem evaluationsDifferByOneUlpInOneRange : Obligations.EvaluationsDifferByOneUlpInOneRange := by
  intro raw differ
  have hraw := raw.isLt
  obtain ⟨low, tie⟩ := product_tie_of_differ differ
  obtain ⟨m, hm⟩ : ∃ m, raw.toNat * 200 = m + 50 * 2 ^ 20 := ⟨_, (Nat.sub_add_cancel (by omega)).symm⟩
  rw [temp32_exactThenF32 hm, temp32_stepwiseF32_of_tie hm (by omega) (by omega)] at *
  rcases lt_or_ge m (2 ^ 27) with small | large
  · refine ⟨?_, ?_, packF32_evenNeighbour (by omega) small (by omega)⟩
    · show 671089 ≤ raw.toNat
      omega
    · show raw.toNat ≤ 933231
      omega
  · refine absurd ?_ differ
    rw [rne24_of_tie large (by omega) (by omega), rne24_evenNeighbour large (by omega) (by omega)]

end Sys2Proof.Machine
end
